-- ==== Sys2Proof/Word.lean ====
section
/-! DEFINITION. The word types of the block and its plainest arithmetic: the 32-bit register word
(rule R20), the output byte (rule R42), the 21-bit bus address (rule R60) and the ceiling division
of rule R12. -/

namespace Sys2Proof

/-- A register or bus word: "Every register is 32 bits wide" (rule R20). -/
abbrev Word := BitVec 32

/-- One byte of the output stream (rule R42) or of the pixel memory. -/
abbrev Byte := BitVec 8

/-- A bus byte address, 21 bits (rules R7 and R60). -/
abbrev BusAddr := BitVec 21

/-- `ceilDiv(a, b) = floor((a + b - 1) / b)` of rule R12, exact on the naturals; it is used with `b > 0` only.
Here and in the other time computations the large constant stands to the left of `+` and `*`: the value is the
same, and Lean's kernel then does not count a literal down one by one. -/
def ceilDiv (a b : Nat) : Nat := (b - 1 + a) / b

end Sys2Proof
end

