-- ==== Sys2Proof/Config.lean ====
section
/-! DEFINITION. What is fixed for one block: the constants of rules R7 and R15, the open parameter
NPIX_MAX, and the free values of the pixel memory after hardware reset. The two open items are
opaque: no proof can use a value of theirs. -/

namespace Sys2Proof.Config

/-- `D = 10^9`, the number of nanoseconds in a second (rule R15). -/
def nsPerSecond : Nat := 1000000000

/-- `PATTERN_MAX_BITS` (rule R7, decision D6). -/
def patternMaxBits : Nat := 32

/-- The denominator of the fixed-point latch safety factor, LATCH_SF / 256 (rule R33). -/
def latchSfOne : Nat := 256

/-- The largest value of a 32-bit register, `2^32 - 1` (rules R110 and R111). -/
def wordMax : Nat := 4294967295

/-- The byte address of `PIX[0][0]` (rule R40). -/
def pixBase : Nat := 0x100000

/-- NPIX_MAX - 1 for the implementation parameter NPIX_MAX, OPEN in the spec (rule R7, decision D15):
`1 ≤ NPIX_MAX ≤ 65535`, so this lies in 0 to 65534. Assumption log 2. -/
opaque npixMaxPred : Fin 65535

/-- The implementation parameter NPIX_MAX, as the 16 bits register NPIX_MAX holds (rule R45). -/
def npixMax : BitVec 16 := BitVec.ofNat 16 (npixMaxPred.val + 1)

/-- FREE VALUE: the byte that pixel memory holds at a bus byte address which the Host has not written
since the hardware reset numbered by the first argument (rule R41, row I1: "drawn once at reset and
stable until written"). Assumption log 1. -/
opaque pixPowerOn : Nat → Nat → Byte

end Sys2Proof.Config
end

