-- ==== Sys2Proof/Syntax.lean ====
section
/-! DEFINITION. The commands of the block: one constructor per row of spec/opcode_table.json
(rule R83). -/

namespace Sys2Proof

/-- A command of the opcode map (rule R83). The operands are the fields of the command word
(rule R81); there is no register operand (rule R46). -/
inductive Instr where
  /-- NOP, OP 0x0 (rule R181). -/
  | nop
  /-- CONFIGURE, OP 0x1 (rule R120). -/
  | configure
  /-- ENCODE_FRAME, OP 0x2 (rule R148): `n` pixels, a latch before (`pre`) and after (`post`). -/
  | encodeFrame (n : Nat) (pre post : Bool)
  /-- GENERATE_LATCH, OP 0x3 (rule R171). -/
  | generateLatch
  /-- CLEAR_ERROR, OP 0x4 (rule R183). -/
  | clearError
  /-- SOFT_RESET, OP 0x5 (rule R185). -/
  | softReset
deriving DecidableEq, Repr

end Sys2Proof
end

