-- ==== Sys2Proof/WellFormed.lean ====
section
/-! DEFINITION. Which commands have a command word: the only operand with a range is the pixel count
of ENCODE_FRAME, "an unsigned pixel count from 0 to 65535" (rule R82). -/

namespace Sys2Proof

/-- The command has a command word: N fits its 16-bit field (rules R81 and R82). -/
def Instr.wellFormed : Instr → Bool
  | .nop => true
  | .configure => true
  | .encodeFrame n _ _ => decide (n ≤ 65535)
  | .generateLatch => true
  | .clearError => true
  | .softReset => true

/-- `i` is well formed (rule R82). -/
abbrev Instr.WellFormed (i : Instr) : Prop := i.wellFormed = true

end Sys2Proof
end

