-- ==== Sys2Proof/Decode.lean ====
section
/-! DEFINITION. The command word: its fields, the decoder of rule R84 (total on all 2^32 words), the
opcode map of rule R83 and the encoder. The unit of decoding is the 32-bit command word; it has no
byte order of its own, since every access moves a whole word (rules R66, R67, R80). -/

namespace Sys2Proof

/-- Why a word is no command: the verdict ILLEGAL of rule R84. -/
inductive DecodeError where
  /-- The word matches no row of the opcode map; `op` is w[3:0] (rules R84 and R85). -/
  | illegal (op : BitVec 4)
deriving DecidableEq, Repr

/-- OP, bits [3:0] (rule R81). -/
def opField (w : Word) : BitVec 4 := w.extractLsb' 0 4

/-- PRE, bit [4] (rule R81). -/
def preField (w : Word) : Bool := w.getLsbD 4

/-- POST, bit [5] (rule R81). -/
def postField (w : Word) : Bool := w.getLsbD 5

/-- N, bits [31:16], zero-extended (rule R82). -/
def nField (w : Word) : Nat := (w.extractLsb' 16 16).toNat

/-- The mask of ENCODE_FRAME: OP and the reserved bits [15:6] (rule R83). -/
def encodeFrameMask : Word := 0x0000FFCF#32

/-- `decode` of rule R84, in the rule's order. -/
def decode (w : Word) : Except DecodeError Instr :=
  if w = 0x00000000#32 then .ok .nop
  else if w = 0x00000001#32 then .ok .configure
  else if w &&& encodeFrameMask = 0x00000002#32 then
    .ok (.encodeFrame (nField w) (preField w) (postField w))
  else if w = 0x00000003#32 then .ok .generateLatch
  else if w = 0x00000004#32 then .ok .clearError
  else if w = 0x00000005#32 then .ok .softReset
  else .error (.illegal (opField w))

/-- The OP of a command (rule R83), which RESULT.LAST_OP reports (rule R23). -/
def Instr.op : Instr → BitVec 4
  | .nop => 0x0#4
  | .configure => 0x1#4
  | .encodeFrame _ _ _ => 0x2#4
  | .generateLatch => 0x3#4
  | .clearError => 0x4#4
  | .softReset => 0x5#4

/-- The row of the opcode map for a command: match and mask (rule R83). -/
def Instr.row : Instr → Word × Word
  | .nop => (0x00000000#32, 0xFFFFFFFF#32)
  | .configure => (0x00000001#32, 0xFFFFFFFF#32)
  | .encodeFrame _ _ _ => (0x00000002#32, encodeFrameMask)
  | .generateLatch => (0x00000003#32, 0xFFFFFFFF#32)
  | .clearError => (0x00000004#32, 0xFFFFFFFF#32)
  | .softReset => (0x00000005#32, 0xFFFFFFFF#32)

/-- `w` selects the row of `i`: `(w AND mask) = match` (rule R83). -/
abbrev Instr.selectedBy (i : Instr) (w : Word) : Prop := w &&& i.row.2 = i.row.1

/-- The command word of a command, field by field (rules R81 and R83): N, the reserved bits as 0,
POST, PRE, OP. For a command that is not well formed N keeps its low 16 bits only. -/
def encode : Instr → Word
  | .nop => 0x00000000#32
  | .configure => 0x00000001#32
  | .encodeFrame n pre post =>
    BitVec.ofNat 16 n ++ (0#10 ++ (BitVec.ofBool post ++ (BitVec.ofBool pre ++ 0x2#4)))
  | .generateLatch => 0x00000003#32
  | .clearError => 0x00000004#32
  | .softReset => 0x00000005#32

/-- The command word made of the low `nbits` bits of `w` (every opcode-table row has 32 bits). -/
def tableWord (nbits w : Nat) : Word := BitVec.ofNat 32 (w % 2 ^ nbits)

/-- The command the decoder reads from a table word, none where it answers ILLEGAL. -/
def decodeTableWord (nbits w : Nat) : Option Instr :=
  match decode (tableWord nbits w) with
  | .ok i => some i
  | .error _ => none

end Sys2Proof
end

