-- ==== Sys2Proof/Machine/Registers.lean ====
section
/-! DEFINITION. The names of the register map (rule R50) and the values that the result registers
report by name (rules R24 and R110). Types only: their readings are in Operands.lean and Flags.lean. -/

namespace Sys2Proof.Machine

/-- The fourteen configuration registers (rules R30 to R36). -/
inductive ConfigReg where
  | bitRateHz | patternLen | chanCfg | latchSf
  | t0hMin | t0hTyp | t0hMax
  | t1hMin | t1hTyp | t1hMax
  | tldMin | tldTyp | tldMax
  | tllMin
deriving DecidableEq, Repr

/-- The registers of the map (rule R50). -/
inductive Reg where
  | cmd | status | result | cfgErrCode | cfgErrDelta | valErrPixel | valErrChannel | outLen
  | latchBytes | pattern0 | pattern1 | highBits | npixMax
  | config (r : ConfigReg)
deriving DecidableEq, Repr

/-- What a bus address names (rule R61). -/
inductive BusTarget where
  /-- A register of rule R50. -/
  | reg (r : Reg)
  /-- The pixel word `PIX[i][c]` (rule R40). -/
  | pix (i : Nat) (c : BitVec 2)
  /-- An undefined address (rule R64). -/
  | undefined
deriving DecidableEq, Repr

/-- RESULT.CODE by name (rule R24): "Any other value is never written". -/
inductive ResultCode where
  | ok | cfgError | valueError | notConfigured | countError | illegalCmd | alreadyConfigured
deriving DecidableEq, Repr

/-- The half of the slot a bound check is about (rule R110: bit 1 of the code). -/
inductive SlotPart where
  | high | low
deriving DecidableEq, Repr

/-- The side of the window that was missed (rule R110: bit 0 of the code). -/
inductive BoundSide where
  | belowMin | aboveMax
deriving DecidableEq, Repr

/-- The failed check of a CONFIGURE by name (rule R110). `bound v part side` is one of the eight
bound checks 0x10 to 0x13 (v = false) and 0x20 to 0x23 (v = true). -/
inductive CfgError where
  | rateZero | patternLen | chanCount | chanOrder | latchFactor | latchRange
  | bound (v : Bool) (part : SlotPart) (side : BoundSide)
  | indistinct
deriving DecidableEq, Repr

/-- What `fail(code, delta)` of rule R112 carries. -/
structure CfgFailure where
  /-- The first check that failed. -/
  error : CfgError
  /-- The amount of rule R111 in picoseconds, saturated. -/
  delta : Word
deriving DecidableEq, Repr

/-- What `ok(h_0, h_1, l_0, l_1, pat_0, pat_1, LB)` of rule R112 carries. -/
structure Derivation where
  h0 : Nat
  h1 : Nat
  l0 : Int
  l1 : Int
  pat0 : List Bool
  pat1 : List Bool
  latch : Nat
deriving DecidableEq, Repr

end Sys2Proof.Machine
end

