-- ==== Sys2Proof/Machine/HostSyntax.lean ====
section
/-! DEFINITION. The Host's side as data: the primitive statements of a host program (rule R89), the
source statements an assembler expands to them (rules R88, R90 to R95), the verdict, and the turns
that say which agent moves next (rules R6 and R70). Types only. -/

namespace Sys2Proof.Machine

/-- The primitive statements of rule R89. The target of BNE is a statement index. -/
inductive HostStmt where
  /-- `WR addr, value`. -/
  | wr (addr : BusAddr) (value : Word)
  /-- `RD addr`: the value read is discarded. -/
  | rd (addr : BusAddr)
  /-- `EXPECT addr, mask, value`. -/
  | expect (addr : BusAddr) (mask value : Word)
  /-- `BNE addr, mask, value, label`. -/
  | bne (addr : BusAddr) (mask value : Word) (target : Nat)
  /-- `HALT`. -/
  | halt
deriving DecidableEq, Repr

/-- How a host program stopped (rule R89). -/
inductive Verdict where
  | pass | fail
deriving DecidableEq, Repr

/-- One move of the system (rules R70 and R230): a Host statement, an Encoder step, or the hardware
reset input event. -/
inductive Turn where
  | host | encoder | hardwareReset
deriving DecidableEq, Repr

/-- A source statement of the host assembly (rules R89 to R95). Labels are names; an
address or value is the number its operand stands for (rule R88). -/
inductive SourceStmt where
  | wr (addr value : Nat)
  | rd (addr : Nat)
  | expect (addr mask value : Nat)
  | bne (addr mask value : Nat) (label : String)
  | halt
  /-- A command mnemonic (rule R90). -/
  | command (i : Instr)
  /-- `SETCFG NAME, value` (rule R91). -/
  | setCfg (r : ConfigReg) (value : Nat)
  /-- `SETPIX i, v0, v1, v2` and `SETPIX i, v0, v1, v2, v3` (rule R92). -/
  | setPix (i : Nat) (v0 v1 v2 : Int) (v3 : Option Int)
  /-- `WAITIDLE` (rule R93). -/
  | waitIdle
  /-- `RUN <command>` (rule R94). -/
  | run (i : Instr)
  /-- `CHECKOK` (rule R95). -/
  | checkOk
deriving DecidableEq, Repr

/-- One source line: an optional label and an optional statement (rule R88). -/
structure SourceLine where
  label : Option String
  stmt : Option SourceStmt
deriving DecidableEq, Repr

/-- A token of a source line (rule R88). -/
inductive Token where
  | ident (name : String)
  | num (n : Nat)
  | comma | colon | minus | lparen | rparen
deriving DecidableEq, Repr

/-- Why a source text is no program. The spec names two assembly errors (rules R89 and R90); the
others are the model's (assumption log 7). -/
inductive AsmError where
  /-- The line with this number (from 0) is no statement of rules R88 to R95. -/
  | badLine (line : Nat)
  /-- A label that names no statement (rule R89). -/
  | labelNamesNothing (label : String)
  /-- A label is defined twice. -/
  | duplicateLabel (label : String)
  /-- A pixel count outside 0 to 65535 (rule R90). -/
  | countOutOfRange (n : Nat)
  /-- A value that is no 32-bit word. -/
  | valueOutOfRange (n : Nat)
deriving DecidableEq, Repr

end Sys2Proof.Machine
end

