-- ==== Sys2Proof/Machine/State.lean ====
section
/-! DEFINITION. The whole state as plain data: every register of rule R50, the pending-command latch
(rule R43), the pixel memory (rule R40), the output stream (rule R42), the Host's program and counter
(rule R89), and the input that says which agent moves next (rule R70); and the state after hardware
reset (rule R49). -/

namespace Sys2Proof.Machine

/-- The configuration registers: full 32-bit storage words (rules R30 to R36). -/
structure ConfigRegs where
  /-- BIT_RATE_HZ, offset 0x040 (rule R30). -/
  bitRateHz : Word
  /-- PATTERN_LEN, offset 0x044 (rule R31). -/
  patternLen : Word
  /-- CHAN_CFG, offset 0x048 (rule R32). -/
  chanCfg : Word
  /-- LATCH_SF, offset 0x04C (rule R33). -/
  latchSf : Word
  /-- T0H_MIN, T0H_TYP, T0H_MAX, offsets 0x050 to 0x058 (rule R34). -/
  t0hMin : Word
  t0hTyp : Word
  t0hMax : Word
  /-- T1H_MIN, T1H_TYP, T1H_MAX, offsets 0x05C to 0x064 (rule R35). -/
  t1hMin : Word
  t1hTyp : Word
  t1hMax : Word
  /-- TLD_MIN, TLD_TYP, TLD_MAX, offsets 0x068 to 0x070 (rule R36); no rule reads TLD_TYP. -/
  tldMin : Word
  tldTyp : Word
  tldMax : Word
  /-- TLL_MIN, offset 0x074 (rule R36). -/
  tllMin : Word
deriving DecidableEq, Repr

/-- The derived registers, written by CONFIGURE (rules R38, R39 and R44). -/
structure DerivedRegs where
  /-- PATTERN0, offset 0x024 (rule R38). -/
  pattern0 : Word
  /-- PATTERN1, offset 0x028 (rule R38). -/
  pattern1 : Word
  /-- HIGH_BITS, offset 0x02C (rule R39). -/
  highBits : Word
  /-- LATCH_BYTES, offset 0x020 (rule R44). -/
  latchBytes : Word
deriving DecidableEq, Repr

/-- The Host as an agent: its program, the statement counter `hpc`, and the verdict once the program
has stopped (rule R89). -/
structure HostAgent where
  program : List HostStmt
  hpc : Nat
  verdict : Option Verdict
deriving DecidableEq, Repr

/-- Pixel memory: (bus byte address, byte) pairs, addresses strictly rising; an address is listed
exactly when the Host has written it since hardware reset (rule R41). What an unlisted address reads
as is `unlistedByte` of Ops.lean. -/
abbrev Memory := List Host.Cell

/-- The state of the system (rule R20, and rule R6 for the Host). -/
structure State where
  /-- The pending-command latch (rule R43); STATUS.BUSY is `pending ≠ none`. -/
  pending : Option Word
  /-- STATUS.CONFIGURED (rule R22). -/
  configured : Bool
  /-- STATUS.LOCK_VIOLATION, sticky (rules R22 and R37). -/
  lockViolation : Bool
  /-- STATUS.BUSY_VIOLATION, sticky (rules R22 and R65). -/
  busyViolation : Bool
  /-- RESULT.CODE (rules R23 and R24). -/
  resultCode : ResultCode
  /-- RESULT.LAST_OP (rule R23). -/
  lastOp : BitVec 4
  /-- CFG_ERR_CODE; none is the code 0, no failure recorded (rule R25). -/
  cfgErrCode : Option CfgError
  /-- CFG_ERR_DELTA, picoseconds (rule R26). -/
  cfgErrDelta : Word
  /-- VAL_ERR_PIXEL (rule R27). -/
  valErrPixel : BitVec 16
  /-- VAL_ERR_CHANNEL (rule R28). -/
  valErrChannel : BitVec 2
  /-- OUT_LEN (rule R29). -/
  outLen : Word
  /-- PATTERN0, PATTERN1, HIGH_BITS, LATCH_BYTES (rules R38, R39 and R44). -/
  derived : DerivedRegs
  /-- NPIX_MAX, the parameter as its register holds it (rule R45). -/
  npixMax : BitVec 16
  /-- The configuration registers (rules R30 to R36). -/
  cfg : ConfigRegs
  /-- The pixel memory (rule R40). -/
  pix : Memory
  /-- MODEL'S OWN: how many hardware resets the pixel memory has seen, which selects the free values
  of its unwritten bytes (assumption log 1). -/
  pixDraw : Nat
  /-- OUT, the bytes handed to the Transport since hardware reset, in order (rule R42). -/
  out : List Byte
  /-- The Host (rules R6 and R89). -/
  host : HostAgent
  /-- MODEL'S OWN input: which agent moves next, first turn first (rule R70, assumption log 3). -/
  turns : List Turn
deriving DecidableEq, Repr

/-- Why the machine would stop with a fault. There is no reason: "The block never traps, never jumps
to a handler and never stops" (rule R200). Nobody raises one. -/
inductive Fault : Type
deriving DecidableEq, Repr

/-- Why a command would have no meaning. -/
inductive Refusal where
  /-- Raised by an arm of `exec` for a command that has no meaning yet; no arm raises it. Safe: the
  model stops where the hardware goes on. -/
  | notModelled (mnemonic : String)
deriving DecidableEq, Repr

/-- What one turn of the system answers. -/
abbrev Result := Host.Outcome State Fault Refusal

/-- Every configuration register at its reset value 0 (rule R50). -/
def ConfigRegs.reset : ConfigRegs :=
  ⟨0#32, 0#32, 0#32, 0#32, 0#32, 0#32, 0#32, 0#32, 0#32, 0#32, 0#32, 0#32, 0#32, 0#32⟩

/-- Every derived register at its reset value 0 (rule R50). -/
def DerivedRegs.reset : DerivedRegs := ⟨0#32, 0#32, 0#32, 0#32⟩

/-- A Host before any program is loaded: no statement, counter at 0, no verdict (rule R89,
assumption log 4). -/
def HostAgent.reset : HostAgent := ⟨[], 0, none⟩

/-- The state after hardware reset (rule R49): every register at the value of rule R50, nothing
pending, unconfigured, pixel memory unspecified, OUT empty. -/
def State.reset : State where
  pending := none
  configured := false
  lockViolation := false
  busyViolation := false
  resultCode := .ok
  lastOp := 0#4
  cfgErrCode := none
  cfgErrDelta := 0#32
  valErrPixel := 0#16
  valErrChannel := 0#2
  outLen := 0#32
  derived := .reset
  npixMax := Config.npixMax
  cfg := .reset
  pix := []
  pixDraw := 0
  out := []
  host := .reset
  turns := []

end Sys2Proof.Machine
end

