-- ==== Sys2Proof/Machine/Flags.lean ====
section
/-! DEFINITION. The status and result registers as the words the Host reads: the codes of rules R24 and
R110, and the layouts of STATUS, RESULT, CFG_ERR_CODE, VAL_ERR_PIXEL, VAL_ERR_CHANNEL and NPIX_MAX. -/

namespace Sys2Proof.Machine

/-- The number of a result code (rule R24). -/
def ResultCode.code : ResultCode → BitVec 8
  | .ok => 0#8
  | .cfgError => 1#8
  | .valueError => 2#8
  | .notConfigured => 3#8
  | .countError => 4#8
  | .illegalCmd => 5#8
  | .alreadyConfigured => 6#8

/-- Bit 1 of a bound check's code: high (0) or low (1) time (rule R110). -/
def SlotPart.bit : SlotPart → Nat
  | .high => 0
  | .low => 2

/-- Bit 0 of a bound check's code: minimum (0) or maximum (1) (rule R110). -/
def BoundSide.bit : BoundSide → Nat
  | .belowMin => 0
  | .aboveMax => 1

/-- The number of a failed check (rule R110): for a bound check, bits [7:4] are the logical value
plus 1. -/
def CfgError.code : CfgError → BitVec 8
  | .rateZero => 0x01#8
  | .patternLen => 0x02#8
  | .chanCount => 0x03#8
  | .chanOrder => 0x04#8
  | .latchFactor => 0x05#8
  | .latchRange => 0x06#8
  | .bound v part side => BitVec.ofNat 8 (0x10 * (v.toNat + 1) + part.bit + side.bit)
  | .indistinct => 0x30#8

/-- STATUS.BUSY: `BUSY = (pending ≠ none)` (rule R22). -/
def State.busy (s : State) : Bool := s.pending.isSome

/-- The word STATUS reads as: BUSY[0], CONFIGURED[1], LOCK_VIOLATION[2], BUSY_VIOLATION[3], the rest 0
(rule R22). -/
def State.statusWord (s : State) : Word :=
  0#28 ++ (BitVec.ofBool s.busyViolation ++ (BitVec.ofBool s.lockViolation ++
    (BitVec.ofBool s.configured ++ BitVec.ofBool s.busy)))

/-- The word RESULT reads as: CODE[7:0], LAST_OP[11:8], the rest 0 (rule R23). -/
def State.resultWord (s : State) : Word := 0#20 ++ (s.lastOp ++ s.resultCode.code)

/-- The word CFG_ERR_CODE reads as: the code in [7:0], 0 where no failure is recorded (rule R25). -/
def State.cfgErrCodeWord (s : State) : Word :=
  match s.cfgErrCode with
  | none => 0#32
  | some e => e.code.setWidth 32

/-- The word VAL_ERR_PIXEL reads as: the index in [15:0] (rule R27). -/
def State.valErrPixelWord (s : State) : Word := s.valErrPixel.setWidth 32

/-- The word VAL_ERR_CHANNEL reads as: the tuple index in [1:0] (rule R28). -/
def State.valErrChannelWord (s : State) : Word := s.valErrChannel.setWidth 32

/-- The word NPIX_MAX reads as: the parameter in [15:0] (rule R45). -/
def State.npixMaxWord (s : State) : Word := s.npixMax.setWidth 32

end Sys2Proof.Machine
end

