-- ==== Sys2Proof/Machine/Operands.lean ====
section
/-! DEFINITION. The operands of the commands: the fields of CHAN_CFG (rule R32), the pattern length, a
pattern register as a bit list (rule R140), the signed reading of a channel word (rules R40 and R145),
the transmission order of a frame (rules R141 and R142), and where a pixel word lies (rule R40). -/

namespace Sys2Proof.Machine

/-- CHAN_CFG.COUNT, bits [3:0]: the number of channels per pixel C (rule R32). -/
def ConfigRegs.chanCount (c : ConfigRegs) : Nat := (c.chanCfg.extractLsb' 0 4).toNat

/-- `ORD_k`, bits [2k+9:2k+8] of CHAN_CFG: the tuple index sent at order position k (rule R32). The
spec gives k = 0 to 3; C is at most 4 once CONFIGURE has succeeded (rule R110). -/
def ConfigRegs.ord (c : ConfigRegs) (k : Nat) : BitVec 2 := c.chanCfg.extractLsb' (8 + 2 * k) 2

/-- `[ORD_0, ..., ORD_{C-1}]` (rule R32). -/
def ConfigRegs.order (c : ConfigRegs) : List (BitVec 2) :=
  (List.range c.chanCount).map c.ord

/-- `L = PATTERN_LEN` (rule R31). -/
def ConfigRegs.patLen (c : ConfigRegs) : Nat := c.patternLen.toNat

/-- A pattern register as the bit list it stands for: `pat[t] = PATTERN[L-1-t]` (rule R140). -/
def patternBits (L : Nat) (p : Word) : List Bool :=
  (List.range L).map fun t => p.getLsbD (L - 1 - t)

/-- The number a bit list stands for, first bit most significant: `Σ bits[t] · 2^(L-1-t)`
(rules R38 and R149). -/
def bitsToNat (bits : List Bool) : Nat := bits.foldl (fun acc b => 2 * acc + b.toNat) 0

/-- A channel word is legal exactly when, read as a signed integer, it lies in 0 to 255
(rule R145). -/
def channelLegal (w : Word) : Bool := decide (0 ≤ w.toInt) && decide (w.toInt ≤ 255)

/-- The byte a legal channel word stands for, its bits [7:0] (rule R143). -/
def channelByte (w : Word) : Byte := w.extractLsb' 0 8

/-- The channels of a frame of N pixels in transmission order: pixel index i upward, then order
position k upward, as pairs of i and the tuple index `ORD_k` (rules R47, R141 and R142). -/
def ConfigRegs.walk (c : ConfigRegs) (n : Nat) : List (Nat × BitVec 2) :=
  (List.range n).flatMap fun i => c.order.map fun ch => (i, ch)

/-- The byte address of `PIX[i][c]`: `0x100000 + 16·i + 4·c` (rule R40). -/
def pixAddr (i : Nat) (c : BitVec 2) : Nat := Config.pixBase + 16 * i + 4 * c.toNat

end Sys2Proof.Machine
end

