-- ==== Sys2Proof/Machine/Ops.lean ====
section
/-! DEFINITION. The shared operations: pixel memory (rules R40 and R41), the register map (rule R50),
the Host's bus read and write (rules R62 and R63), completing a command (rules R23, R29, R42 and R43),
raising an error (rules R121, R146, R204, R206 to R208) and reset (rules R185 and R230). The block has
no trap entry and no trap return (rules R211 and R212): raising an error takes their place. -/

namespace Sys2Proof.Machine

/-! ### Pixel memory -/

/-- The canonical form of pixel memory: addresses strictly rising (so no address twice). -/
abbrev Memory.wf (m : Memory) : Prop := m.Pairwise fun x y => x.1 < y.1

/-- The byte listed at an address, if any. -/
def Memory.find (m : Memory) (a : Nat) : Option Byte :=
  match m with
  | [] => none
  | (a', b) :: rest => if a = a' then some b else Memory.find rest a

/-- Write one byte, keeping the canonical form. -/
def Memory.writeByte (m : Memory) (a : Nat) (b : Byte) : Memory :=
  match m with
  | [] => [(a, b)]
  | (a', b') :: rest =>
    if a < a' then (a, b) :: (a', b') :: rest
    else if a = a' then (a, b) :: rest
    else (a', b') :: Memory.writeByte rest a b

/-- What an unlisted address reads as: the free value of the current draw (rule R41, row I1,
assumption log 1). -/
def unlistedByte (draw a : Nat) : Byte := Config.pixPowerOn draw a

/-- The byte of pixel memory at an address: the listed one, else the unlisted one. -/
def State.pixByte (s : State) (a : Nat) : Byte := (s.pix.find a).getD (unlistedByte s.pixDraw a)

/-- The 32-bit word of pixel memory at a word address. Byte 0 is least significant: no access shows
that order (rule R67, assumption log 5). -/
def State.pixWordAt (s : State) (a : Nat) : Word :=
  s.pixByte (a + 3) ++ (s.pixByte (a + 2) ++ (s.pixByte (a + 1) ++ s.pixByte a))

/-- `PIX[i][c]` (rule R40). -/
def State.pixWord (s : State) (i : Nat) (c : BitVec 2) : Word := s.pixWordAt (pixAddr i c)

/-- Write the four bytes of a word at a word address, in the order of `State.pixWordAt`. -/
def Memory.writeWord (m : Memory) (a : Nat) (w : Word) : Memory :=
  (((m.writeByte a (w.extractLsb' 0 8)).writeByte (a + 1) (w.extractLsb' 8 8)).writeByte
    (a + 2) (w.extractLsb' 16 8)).writeByte (a + 3) (w.extractLsb' 24 8)

/-- `PIX[i][c] <- w` (rule R63 step 4). -/
def State.storePix (s : State) (i : Nat) (c : BitVec 2) (w : Word) : State :=
  { s with pix := s.pix.writeWord (pixAddr i c) w }

/-! ### The register map -/

/-- The offset of a configuration register (rule R50). -/
def ConfigReg.offset : ConfigReg → Nat
  | .bitRateHz => 0x040
  | .patternLen => 0x044
  | .chanCfg => 0x048
  | .latchSf => 0x04C
  | .t0hMin => 0x050
  | .t0hTyp => 0x054
  | .t0hMax => 0x058
  | .t1hMin => 0x05C
  | .t1hTyp => 0x060
  | .t1hMax => 0x064
  | .tldMin => 0x068
  | .tldTyp => 0x06C
  | .tldMax => 0x070
  | .tllMin => 0x074

/-- The offset of a register (rule R50). -/
def Reg.offset : Reg → Nat
  | .cmd => 0x000
  | .status => 0x004
  | .result => 0x008
  | .cfgErrCode => 0x00C
  | .cfgErrDelta => 0x010
  | .valErrPixel => 0x014
  | .valErrChannel => 0x018
  | .outLen => 0x01C
  | .latchBytes => 0x020
  | .pattern0 => 0x024
  | .pattern1 => 0x028
  | .highBits => 0x02C
  | .npixMax => 0x030
  | .config r => r.offset

/-- The fourteen configuration registers in the order of their offsets (rule R50). -/
def ConfigReg.all : List ConfigReg :=
  [.bitRateHz, .patternLen, .chanCfg, .latchSf, .t0hMin, .t0hTyp, .t0hMax, .t1hMin, .t1hTyp,
    .t1hMax, .tldMin, .tldTyp, .tldMax, .tllMin]

/-- The registers in the order of their offsets (rule R50). -/
def Reg.all : List Reg :=
  [.cmd, .status, .result, .cfgErrCode, .cfgErrDelta, .valErrPixel, .valErrChannel, .outLen,
    .latchBytes, .pattern0, .pattern1, .highBits, .npixMax] ++ ConfigReg.all.map .config

/-- The value of a configuration register (rules R30 to R36). -/
def ConfigRegs.get (c : ConfigRegs) : ConfigReg → Word
  | .bitRateHz => c.bitRateHz
  | .patternLen => c.patternLen
  | .chanCfg => c.chanCfg
  | .latchSf => c.latchSf
  | .t0hMin => c.t0hMin
  | .t0hTyp => c.t0hTyp
  | .t0hMax => c.t0hMax
  | .t1hMin => c.t1hMin
  | .t1hTyp => c.t1hTyp
  | .t1hMax => c.t1hMax
  | .tldMin => c.tldMin
  | .tldTyp => c.tldTyp
  | .tldMax => c.tldMax
  | .tllMin => c.tllMin

/-- A write to a configuration register stores all 32 bits (rules R30 to R36 and their section's head). -/
def ConfigRegs.set (c : ConfigRegs) (r : ConfigReg) (w : Word) : ConfigRegs :=
  match r with
  | .bitRateHz => { c with bitRateHz := w }
  | .patternLen => { c with patternLen := w }
  | .chanCfg => { c with chanCfg := w }
  | .latchSf => { c with latchSf := w }
  | .t0hMin => { c with t0hMin := w }
  | .t0hTyp => { c with t0hTyp := w }
  | .t0hMax => { c with t0hMax := w }
  | .t1hMin => { c with t1hMin := w }
  | .t1hTyp => { c with t1hTyp := w }
  | .t1hMax => { c with t1hMax := w }
  | .tldMin => { c with tldMin := w }
  | .tldTyp => { c with tldTyp := w }
  | .tldMax => { c with tldMax := w }
  | .tllMin => { c with tllMin := w }

/-- `REG[NAME]`: the word a register reads as (rules R21 to R45); CMD reads 0 (rule R21). -/
def State.readReg (s : State) : Reg → Word
  | .cmd => 0#32
  | .status => s.statusWord
  | .result => s.resultWord
  | .cfgErrCode => s.cfgErrCodeWord
  | .cfgErrDelta => s.cfgErrDelta
  | .valErrPixel => s.valErrPixelWord
  | .valErrChannel => s.valErrChannelWord
  | .outLen => s.outLen
  | .latchBytes => s.derived.latchBytes
  | .pattern0 => s.derived.pattern0
  | .pattern1 => s.derived.pattern1
  | .highBits => s.derived.highBits
  | .npixMax => s.npixMaxWord
  | .config r => s.cfg.get r

/-! ### The Host's bus accesses -/

/-- The word address an access goes to: `addr[20:2] · 4` (rule R66). -/
def wordAddr (addr : BusAddr) : Nat := (addr.extractLsb' 2 19).toNat * 4

/-- What a bus address names, for a pixel memory of `npix` pixels (rule R61). -/
def busTarget (npix : Nat) (addr : BusAddr) : BusTarget :=
  let a := wordAddr addr
  match Reg.all.find? (fun r => r.offset == a) with
  | some r => .reg r
  | none =>
    if Config.pixBase ≤ a ∧ (a - Config.pixBase) / 16 < npix then
      .pix ((a - Config.pixBase) / 16) (BitVec.ofNat 2 ((a - Config.pixBase) / 4))
    else .undefined

/-- `MemRead(addr, 4)` (rule R62). It has no side effect, so it answers the word only. -/
def State.memRead (s : State) (addr : BusAddr) : Word :=
  match busTarget s.npixMax.toNat addr with
  | .reg r => s.readReg r
  | .pix i c => s.pixWord i c
  | .undefined => 0#32

/-- A write to a configuration register: stored while unconfigured, refused with the sticky flag while
configured (rule R37). -/
def State.writeConfig (s : State) (r : ConfigReg) (w : Word) : State :=
  if s.configured then { s with lockViolation := true } else { s with cfg := s.cfg.set r w }

/-- `MemWrite(addr, 4, w)`, its five cases in the order of rule R63. -/
def State.memWrite (s : State) (addr : BusAddr) (w : Word) : State :=
  if s.busy then { s with busyViolation := true }
  else match busTarget s.npixMax.toNat addr with
    | .reg .cmd => { s with pending := some w }
    | .reg (.config r) => s.writeConfig r w
    | .pix i c => s.storePix i c w
    | .reg _ => s
    | .undefined => s

/-! ### Completing a command -/

/-- The completion every command ends in: RESULT (CODE and LAST_OP), the bytes appended to OUT, OUT_LEN
as their count modulo 2^32, and nothing pending any more (rules R23, R29, R42 and R43). -/
def State.finish (s : State) (code : ResultCode) (op : BitVec 4) (bytes : List Byte) : State :=
  { s with
    resultCode := code
    lastOp := op
    outLen := BitVec.ofNat 32 bytes.length
    out := s.out ++ bytes
    pending := none }

/-- Write the derived registers (rules R120 and R121). -/
def State.setDerived (s : State) (d : DerivedRegs) : State := { s with derived := d }

/-- Write CFG_ERR_CODE and CFG_ERR_DELTA together (rule R26). -/
def State.setCfgErr (s : State) (e : Option CfgError) (delta : Word) : State :=
  { s with cfgErrCode := e, cfgErrDelta := delta }

/-- Write VAL_ERR_PIXEL and VAL_ERR_CHANNEL together (rule R28). -/
def State.setValErr (s : State) (pixel : BitVec 16) (channel : BitVec 2) : State :=
  { s with valErrPixel := pixel, valErrChannel := channel }

/-- Clear the sticky flags (rule R183). -/
def State.clearSticky (s : State) : State :=
  { s with lockViolation := false, busyViolation := false }

/-- Set STATUS.CONFIGURED (rule R120). -/
def State.setConfigured (s : State) : State := { s with configured := true }

/-! ### Raising an error: the command ends, nothing is emitted (rule R204) -/

/-- `raise CommandError(code)`: RESULT and OUT_LEN only (rules R206 to R208). -/
def State.raiseCommandError (s : State) (code : ResultCode) (op : BitVec 4) : State :=
  s.finish code op []

/-- `raise ConfigurationError(code, delta)`: the error registers, the derived registers set to 0, and
RESULT = CFG_ERROR with LAST_OP 0x1 (rule R121). -/
def State.raiseConfigurationError (s : State) (f : CfgFailure) : State :=
  ((s.setCfgErr (some f.error) f.delta).setDerived .reset).finish .cfgError 0x1#4 []

/-- `raise ValueError(pixel, channel)`: the detail registers and RESULT = VALUE_ERROR with LAST_OP 0x2
(rule R146). -/
def State.raiseValueError (s : State) (pixel : Nat) (channel : BitVec 2) : State :=
  (s.setValErr (BitVec.ofNat 16 pixel) channel).finish .valueError 0x2#4 []

/-! ### Reset -/

/-- Every register of rule R50 other than CMD and NPIX_MAX at its reset value (rule R185). -/
def State.resetRegisters (s : State) : State :=
  { s with
    configured := false
    lockViolation := false
    busyViolation := false
    resultCode := .ok
    lastOp := 0#4
    cfgErrCode := none
    cfgErrDelta := 0#32
    valErrPixel := 0#16
    valErrChannel := 0#2
    outLen := 0#32
    derived := .reset
    cfg := .reset }

/-- The hardware reset input event (rule R230): the registers reset, a pending command discarded, the
pixel memory unspecified again (a new draw, rule R41), OUT empty for the model (rules R42 and R233).
DEDUCED: the Host and the turns still to come are outside the block (assumption log 6). -/
def State.hardwareReset (s : State) : State :=
  { s.resetRegisters with pending := none, pix := [], pixDraw := s.pixDraw + 1, out := [] }

/-- Take the first turn off the input (assumption log 3). -/
def State.popTurn (s : State) : State := { s with turns := s.turns.tail }

end Sys2Proof.Machine
end

