-- ==== Sys2Proof/Machine/Control.lean ====
section
/-! DEFINITION. The control commands: NOP (rule R181), CLEAR_ERROR (rule R183), SOFT_RESET (rule R185),
and the completion of an illegal word (rule R186). -/

namespace Sys2Proof.Machine

/-- NOP (rule R181): RESULT and OUT_LEN only. -/
def execNop (s : State) : Result := .next (s.finish .ok 0x0#4 [])

/-- CLEAR_ERROR (rule R183): the sticky flags and the four error-detail registers. -/
def execClearError (s : State) : Result :=
  .next (((s.clearSticky.setCfgErr none 0#32).setValErr 0#16 0#2).finish .ok 0x4#4 [])

/-- SOFT_RESET (rule R185): every register to its reset value except CMD and NPIX_MAX; PIX and OUT are
kept. -/
def execSoftReset (s : State) : Result := .next (s.resetRegisters.finish .ok 0x5#4 [])

/-- The completion of a word that is no command (rule R186): RESULT = ILLEGAL_CMD with LAST_OP w[3:0],
OUT_LEN 0, and no other effect. -/
def execIllegal (op : BitVec 4) (s : State) : Result := .next (s.finish .illegalCmd op [])

end Sys2Proof.Machine
end

