-- ==== Sys2Proof/Machine/FrameAssembler.lean ====
section
/-! DEFINITION. The frame assembler: the bit stream of a frame (rule R147), its packing (rule R149), the
check of its channel words (rules R145 and R146) and the command ENCODE_FRAME (rule R148). -/

namespace Sys2Proof.Machine

/-- The logical bits of a byte, bit 7 first (rule R143). -/
def byteBits (b : Byte) : List Bool := [7, 6, 5, 4, 3, 2, 1, 0].map fun j => b.getLsbD j

/-- The pattern of a logical bit: `pat_1` for 1, `pat_0` for 0, from the pattern registers
(rules R140 and R144). -/
def State.slotBits (s : State) (v : Bool) : List Bool :=
  patternBits s.cfg.patLen (if v then s.derived.pattern1 else s.derived.pattern0)

/-- The physical bits of one channel value (rules R143 and R144). -/
def State.channelBits (s : State) (b : Byte) : List Bool := (byteBits b).flatMap s.slotBits

/-- `encodeBits(N)` (rule R147). -/
def State.encodeBits (s : State) (n : Nat) : List Bool :=
  (s.cfg.walk n).flatMap fun p => s.channelBits (channelByte (s.pixWord p.1 p.2))

/-- `pack(bits)`: eight bits to a byte, first bit most significant (rule R149). -/
def pack : List Bool → List Byte
  | b0 :: b1 :: b2 :: b3 :: b4 :: b5 :: b6 :: b7 :: rest =>
    BitVec.ofNat 8 (bitsToNat [b0, b1, b2, b3, b4, b5, b6, b7]) :: pack rest
  | _ => []

/-- The bytes of the frame part of ENCODE_FRAME's output (rules R147 and R149). -/
def State.frameBytes (s : State) (n : Nat) : List Byte := pack (s.encodeBits n)

/-- The first illegal channel word of a frame in transmission order, as pixel index and tuple index
(rules R145 and R146). -/
def State.firstIllegal (s : State) (n : Nat) : Option (Nat × BitVec 2) :=
  (s.cfg.walk n).find? fun p => !channelLegal (s.pixWord p.1 p.2)

/-- `latch = repeat(REG[LATCH_BYTES], 0x00)`: the latch bytes, fill value always 0x00 (rules R148,
R171 and R173). -/
def State.latchFill (s : State) : List Byte := List.replicate s.derived.latchBytes.toNat 0#8

/-- `bytes` of rule R148: the frame, with the latch before it if PRE and after it if POST. -/
def State.frameOutput (s : State) (n : Nat) (pre post : Bool) : List Byte :=
  (if pre then s.latchFill else []) ++ s.frameBytes n ++ (if post then s.latchFill else [])

/-- ENCODE_FRAME (rule R148): NOT_CONFIGURED, then COUNT_ERROR, then VALUE_ERROR, then the frame. -/
def execEncodeFrame (n : Nat) (pre post : Bool) (s : State) : Result :=
  if s.configured = false then .next (s.raiseCommandError .notConfigured 0x2#4)
  else if s.npixMax.toNat < n then .next (s.raiseCommandError .countError 0x2#4)
  else match s.firstIllegal n with
    | some p => .next (s.raiseValueError p.1 p.2)
    | none => .next (s.finish .ok 0x2#4 (s.frameOutput n pre post))

end Sys2Proof.Machine
end

