-- ==== Sys2Proof/Machine/LatchGenerator.lean ====
section
/-! DEFINITION. The latch generator: the command GENERATE_LATCH (rule R171). The byte count is computed
by CONFIGURE (rule R170, in PatternGenerator.lean). -/

namespace Sys2Proof.Machine

/-- GENERATE_LATCH (rule R171). OUT_LEN receives the byte count, which is LATCH_BYTES. -/
def execGenerateLatch (s : State) : Result :=
  if s.configured = false then .next (s.raiseCommandError .notConfigured 0x3#4)
  else .next (s.finish .ok 0x3#4 s.latchFill)

end Sys2Proof.Machine
end

