-- ==== Sys2Proof/Machine/PatternGenerator.lean ====
section
/-! DEFINITION. The pattern generator: the derivation of 40_pattern_generator.md as a pure function of
the configuration registers (rules R100 to R112) and the command CONFIGURE (rules R120 and R121). All
times are compared exactly, by cross-multiplying with the rate (rule R101). -/

namespace Sys2Proof.Machine

/-- `MINH_v` (rule R102). -/
def ConfigRegs.highMin (c : ConfigRegs) (v : Bool) : Nat :=
  if v then c.t1hMin.toNat else c.t0hMin.toNat

/-- `TYPH_v` (rule R102). -/
def ConfigRegs.highTyp (c : ConfigRegs) (v : Bool) : Nat :=
  if v then c.t1hTyp.toNat else c.t0hTyp.toNat

/-- `MAXH_v` (rule R102). -/
def ConfigRegs.highMax (c : ConfigRegs) (v : Bool) : Nat :=
  if v then c.t1hMax.toNat else c.t0hMax.toNat

/-- `h_v = floor((2·TYPH_v·rate + D) / (2·D))`, round half up (rule R103). -/
def ConfigRegs.highBitsOf (c : ConfigRegs) (v : Bool) : Nat :=
  (Config.nsPerSecond + 2 * c.highTyp v * c.bitRateHz.toNat) / (2 * Config.nsPerSecond)

/-- `l_v = L - h_v` in ℤ (rule R104). -/
def ConfigRegs.lowBitsOf (c : ConfigRegs) (v : Bool) : Int :=
  (c.patLen : Int) - (c.highBitsOf v : Int)

/-- `latchBytes(TLL_MIN, SF, rate) = ceilDiv(TLL_MIN · SF · rate, 256 · 8 · D)` (rule R170). -/
def ConfigRegs.latchCount (c : ConfigRegs) : Nat :=
  ceilDiv (c.tllMin.toNat * c.latchSf.toNat * c.bitRateHz.toNat)
    (Config.latchSfOne * 8 * Config.nsPerSecond)

/-- `deltaPs(x) = min(ceilDiv(1000·x, rate), 2^32 - 1)` for a positive miss `x` in ns·Hz
(rule R111). -/
def deltaPs (x : Int) (rate : Nat) : Word :=
  BitVec.ofNat 32 (min (ceilDiv (1000 * x.toNat) rate) Config.wordMax)

/-- The field checks 0x01 to 0x06, in their order (rule R110, rows 1 to 6). -/
def ConfigRegs.fieldCheck (c : ConfigRegs) : Option CfgError :=
  if c.bitRateHz.toNat = 0 then some .rateZero
  else if c.patLen < 1 ∨ Config.patternMaxBits < c.patLen then some .patternLen
  else if ¬ (c.chanCount = 3 ∨ c.chanCount = 4) then some .chanCount
  else if (c.order.map BitVec.toNat).isPerm (List.range c.chanCount) = false then some .chanOrder
  else if c.latchSf.toNat < Config.latchSfOne then some .latchFactor
  else if Config.wordMax < c.latchCount then some .latchRange
  else none

/-- The four bound checks of one logical value, in their order (rule R110, rows 7 to 10 for v = 0 and
11 to 14 for v = 1; rules R106 and R107). -/
def ConfigRegs.boundCheck (c : ConfigRegs) (v : Bool) : Option CfgFailure :=
  let rate := c.bitRateHz.toNat
  let high : Int := (Config.nsPerSecond : Int) * (c.highBitsOf v : Int)
  let low : Int := (Config.nsPerSecond : Int) * c.lowBitsOf v
  let minH : Int := ((c.highMin v * rate : Nat) : Int)
  let maxH : Int := ((c.highMax v * rate : Nat) : Int)
  let minL : Int := ((c.tldMin.toNat * rate : Nat) : Int)
  let maxL : Int := ((c.tldMax.toNat * rate : Nat) : Int)
  if high < minH then some ⟨.bound v .high .belowMin, deltaPs (minH - high) rate⟩
  else if maxH < high then some ⟨.bound v .high .aboveMax, deltaPs (high - maxH) rate⟩
  else if low < minL then some ⟨.bound v .low .belowMin, deltaPs (minL - low) rate⟩
  else if maxL < low then some ⟨.bound v .low .aboveMax, deltaPs (low - maxL) rate⟩
  else none

/-- `pat_v = ones(h_v) ++ zeros(l_v)` (rule R105). -/
def ConfigRegs.patternOf (c : ConfigRegs) (v : Bool) : List Bool :=
  List.replicate (c.highBitsOf v) true ++ List.replicate (c.lowBitsOf v).toNat false

/-- `derive()` (rule R112): the field checks, the bound checks of v = 0, then of v = 1, then
distinctness; the first failure is reported. -/
def ConfigRegs.derive (c : ConfigRegs) : Except CfgFailure Derivation :=
  match c.fieldCheck with
  | some e => .error ⟨e, 0#32⟩
  | none =>
    match c.boundCheck false with
    | some f => .error f
    | none =>
      match c.boundCheck true with
      | some f => .error f
      | none =>
        if c.highBitsOf false = c.highBitsOf true then .error ⟨.indistinct, 0#32⟩
        else .ok {
          h0 := c.highBitsOf false
          h1 := c.highBitsOf true
          l0 := c.lowBitsOf false
          l1 := c.lowBitsOf true
          pat0 := c.patternOf false
          pat1 := c.patternOf true
          latch := c.latchCount }

/-- The derived registers a successful CONFIGURE writes (rules R38, R39, R44 and R120). -/
def Derivation.regs (d : Derivation) : DerivedRegs where
  pattern0 := BitVec.ofNat 32 (bitsToNat d.pat0)
  pattern1 := BitVec.ofNat 32 (bitsToNat d.pat1)
  highBits :=
    BitVec.ofInt 32 ((d.h0 : Int) + 2 ^ 8 * (d.h1 : Int) + 2 ^ 16 * d.l0 + 2 ^ 24 * d.l1)
  latchBytes := BitVec.ofNat 32 d.latch

/-- The success of CONFIGURE (rule R120): the derived registers, no failure recorded, CONFIGURED set,
RESULT = OK with LAST_OP 0x1, OUT_LEN 0. -/
def State.installConfiguration (s : State) (d : Derivation) : State :=
  (((s.setDerived d.regs).setCfgErr none 0#32).setConfigured).finish .ok 0x1#4 []

/-- CONFIGURE (rule R120). -/
def execConfigure (s : State) : Result :=
  if s.configured then .next (s.raiseCommandError .alreadyConfigured 0x1#4)
  else match s.cfg.derive with
    | .error f => .next (s.raiseConfigurationError f)
    | .ok d => .next (s.installConfiguration d)

end Sys2Proof.Machine
end

