-- ==== Sys2Proof/Machine/Dispatch.lean ====
section
/-! DEFINITION. The command a decoded word runs: one arm per row of the opcode map (rule R83). -/

namespace Sys2Proof.Machine

/-- Execute one command to completion, in one atomic step (rule R43). -/
def exec (i : Instr) (s : State) : Host.Outcome State Fault Refusal :=
  match i with
  | .nop => Sys2Proof.Machine.execNop s
  | .configure => Sys2Proof.Machine.execConfigure s
  | .encodeFrame n pre post => Sys2Proof.Machine.execEncodeFrame n pre post s
  | .generateLatch => Sys2Proof.Machine.execGenerateLatch s
  | .clearError => Sys2Proof.Machine.execClearError s
  | .softReset => Sys2Proof.Machine.execSoftReset s

end Sys2Proof.Machine
end

