-- ==== Sys2Proof/Machine/HostProgram.lean ====
section
/-! DEFINITION. The Host executing its program: one primitive statement per turn (rule R89). -/

namespace Sys2Proof.Machine

/-- `hpc <- target`. -/
def State.setHpc (s : State) (target : Nat) : State :=
  { s with host := { s.host with hpc := target } }

/-- The program stops with a verdict (rule R89), `hpc` as it is (assumption log 14). -/
def State.stopHost (s : State) (v : Verdict) : State :=
  { s with host := { s.host with verdict := some v } }

/-- The test of EXPECT and BNE: `(r AND mask) ≠ value` for the word `r` read at the address
(rule R89). -/
def State.readDiffers (s : State) (addr : BusAddr) (mask value : Word) : Bool :=
  decide (s.memRead addr &&& mask ≠ value)

/-- The effect of one primitive statement (rule R89). DESIGN CHOICE: a statement that stops the program
leaves `hpc` at itself (assumption log 14). -/
def HostStmt.run (st : HostStmt) (s : State) : State :=
  match st with
  | .wr addr value => (s.memWrite addr value).setHpc (s.host.hpc + 1)
  | .rd _ => s.setHpc (s.host.hpc + 1)
  | .expect addr mask value =>
    if s.readDiffers addr mask value then s.stopHost .fail else s.setHpc (s.host.hpc + 1)
  | .bne addr mask value target =>
    if s.readDiffers addr mask value then s.setHpc target else s.setHpc (s.host.hpc + 1)
  | .halt => s.stopHost .pass

/-- One Host turn: past its last statement the program stops as if it had reached HALT (rule R89).
DESIGN CHOICE: nothing once the program has stopped (assumption log 10). -/
def State.hostTurn (s : State) : State :=
  match s.host.verdict with
  | some _ => s
  | none =>
    match s.host.program[s.host.hpc]? with
    | none => HostStmt.halt.run s
    | some st => st.run s

/-- Load a host program from outside: the counter at 0, no verdict (rule R89). -/
def State.loadProgram (s : State) (p : List HostStmt) : State := { s with host := ⟨p, 0, none⟩ }

end Sys2Proof.Machine
end

