-- ==== Sys2Proof/Machine/Encoder.lean ====
section
/-! DEFINITION. The Encoder's step: fetch the pending command word, decode it, execute it (rules R43
and R80). -/

namespace Sys2Proof.Machine

/-- What the Encoder does with a pending command word: the word is decoded when it is executed
(rule R80); a word that is no command completes as illegal (rule R85). -/
def runWord (w : Word) (s : State) : Result :=
  match decode w with
  | .ok i => exec i s
  | .error (.illegal op) => execIllegal op s

/-- One Encoder turn: its step is enabled exactly when a command is pending (rule R43); otherwise it
"does nothing until the next CMD write" (rule R219). -/
def State.encoderTurn (s : State) : Result :=
  match s.pending with
  | none => .next s
  | some w => runWord w s

/-- The move of one agent, or the reset input event (rules R70 and R230). -/
def State.takeTurn (s : State) : Turn → Result
  | .host => .next s.hostTurn
  | .encoder => s.encoderTurn
  | .hardwareReset => .next s.hardwareReset

/-- The turn taken next: the first one of the input; where the input has run out, the Encoder while a
command is pending and the Host otherwise, as the programs of 95_test_vectors.md section 7 assume
(assumption log 3). -/
def State.nextTurn (s : State) : Turn :=
  match s.turns with
  | t :: _ => t
  | [] => if s.busy then .encoder else .host

/-- The input that makes the next turn the Encoder's while a command is pending: nothing where the
input has run out, else one Encoder turn in front. -/
def encoderFirst (turns : List Turn) : List Turn :=
  match turns with
  | [] => []
  | t :: ts => .encoder :: t :: ts

end Sys2Proof.Machine
end

