-- ==== Sys2Proof/Machine/Step.lean ====
section
/-! DEFINITION. One step of the system, and how the host places a command word for the next step. -/

namespace Sys2Proof.Machine

/-- One step: the agent whose turn it is moves (rule R70). -/
def step (s : State) : Host.Outcome State Fault Refusal := s.popTurn.takeTurn s.nextTurn

/-- `s` with the command word of a table row pending, as an accepted CMD write leaves it (rule R21), and
the Encoder's turn next: the very next step executes it (assumption log 4). -/
def State.withFetchWord (s : State) (nbits w : Nat) : State :=
  { s with pending := some (tableWord nbits w), turns := encoderFirst s.turns }

end Sys2Proof.Machine
end

