-- ==== Sys2Proof/Machine/HostAssembly.lean ====
section
/-! DEFINITION. The host assembly: from a text (rule R88) to source lines, and from source lines to the
primitive statements of rule R89, expanding the command mnemonics and the pseudo-instructions (rules
R90 to R95). What the rules leave open about the notation is in assumption log 7. -/

namespace Sys2Proof.Machine

/-! ### Names -/

/-- The name of a configuration register in the map (rule R50). -/
def ConfigReg.name : ConfigReg → String
  | .bitRateHz => "BIT_RATE_HZ"
  | .patternLen => "PATTERN_LEN"
  | .chanCfg => "CHAN_CFG"
  | .latchSf => "LATCH_SF"
  | .t0hMin => "T0H_MIN"
  | .t0hTyp => "T0H_TYP"
  | .t0hMax => "T0H_MAX"
  | .t1hMin => "T1H_MIN"
  | .t1hTyp => "T1H_TYP"
  | .t1hMax => "T1H_MAX"
  | .tldMin => "TLD_MIN"
  | .tldTyp => "TLD_TYP"
  | .tldMax => "TLD_MAX"
  | .tllMin => "TLL_MIN"

/-- The name of a register in the map (rule R50). -/
def Reg.name : Reg → String
  | .cmd => "CMD"
  | .status => "STATUS"
  | .result => "RESULT"
  | .cfgErrCode => "CFG_ERR_CODE"
  | .cfgErrDelta => "CFG_ERR_DELTA"
  | .valErrPixel => "VAL_ERR_PIXEL"
  | .valErrChannel => "VAL_ERR_CHANNEL"
  | .outLen => "OUT_LEN"
  | .latchBytes => "LATCH_BYTES"
  | .pattern0 => "PATTERN0"
  | .pattern1 => "PATTERN1"
  | .highBits => "HIGH_BITS"
  | .npixMax => "NPIX_MAX"
  | .config r => r.name

/-! ### Reading the text (rule R88) -/

/-- A character of a name or a number. -/
def isWordChar (c : Char) : Bool := c.isAlphanum || c == '_'

/-- The value of a digit in a base, if it is one. -/
def digitValue (base : Nat) (c : Char) : Option Nat :=
  let v :=
    if '0' ≤ c ∧ c ≤ '9' then c.toNat - '0'.toNat
    else if 'a' ≤ c ∧ c ≤ 'f' then c.toNat - 'a'.toNat + 10
    else if 'A' ≤ c ∧ c ≤ 'F' then c.toNat - 'A'.toNat + 10
    else base
  if v < base then some v else none

/-- The number a run of digits stands for, most significant first. -/
def digitsValue (base : Nat) (acc : Nat) : List Char → Option Nat
  | [] => some acc
  | c :: cs => (digitValue base c).bind fun v => digitsValue base (acc * base + v) cs

/-- A number: decimal, or hexadecimal after `0x` (rule R88). -/
def numberValue : List Char → Option Nat
  | '0' :: 'x' :: d :: ds => digitsValue 16 0 (d :: ds)
  | cs => digitsValue 10 0 cs

/-- The token of a finished word: a number if it starts with a digit, else a name; none for the empty
word. -/
def wordTokens (cs : List Char) : Option (List Token) :=
  match cs with
  | [] => some []
  | c :: _ =>
    if c.isDigit then (numberValue cs).map fun n => [.num n]
    else some [.ident (String.ofList cs)]

/-- The tokens of a character that is no part of a word: a blank gives none. -/
def punctTokens (c : Char) : Option (List Token) :=
  if c == ' ' || c == '\t' || c == '\r' then some []
  else if c == ',' then some [.comma]
  else if c == ':' then some [.colon]
  else if c == '-' then some [.minus]
  else if c == '(' then some [.lparen]
  else if c == ')' then some [.rparen]
  else none

/-- The tokens of one line; `;` starts a comment to its end (rule R88). `word` is the word read so
far, last character first. -/
def lex (word : List Char) : List Char → Option (List Token)
  | [] => wordTokens word.reverse
  | c :: cs =>
    if c == ';' then wordTokens word.reverse
    else if isWordChar c then lex (c :: word) cs
    else do
      let before ← wordTokens word.reverse
      let here ← punctTokens c
      let after ← lex [] cs
      pure (before ++ here ++ after)

/-- The lines of a text. `line` is the line read so far, last character first. -/
def splitLines (line : List Char) : List Char → List (List Char)
  | [] => [line.reverse]
  | c :: cs => if c == '\n' then line.reverse :: splitLines [] cs else splitLines (c :: line) cs

/-- A number operand: a number, `PIX(i, c)`, or a register name standing for its offset (rule R88).
DESIGN CHOICE: inside `PIX(i, c)` only numbers written out are read, no register name (assumption
log 7). -/
def parseNumber : List Token → Option (Nat × List Token)
  | .num n :: rest => some (n, rest)
  | .ident "PIX" :: .lparen :: .num i :: .comma :: .num c :: .rparen :: rest =>
    some (Config.pixBase + 16 * i + 4 * c, rest)
  | .ident name :: rest =>
    (Reg.all.find? fun r => r.name == name).map fun r => (r.offset, rest)
  | _ => none

/-- A comma and a number operand. -/
def parseNextNumber : List Token → Option (Nat × List Token)
  | .comma :: rest => parseNumber rest
  | _ => none

/-- A comma and a pixel value, which may be negative (rule R92). -/
def parseNextValue : List Token → Option (Int × List Token)
  | .comma :: .minus :: .num n :: rest => some (-(n : Int), rest)
  | .comma :: rest => (parseNumber rest).map fun p => ((p.1 : Int), p.2)
  | _ => none

/-- A command mnemonic with its operands (rule R90). -/
def parseCommand : List Token → Option Instr
  | [.ident "NOP"] => some .nop
  | [.ident "CONFIGURE"] => some .configure
  | .ident "ENCODE_FRAME" :: rest =>
    (parseNumber rest).bind fun p =>
      match p.2 with
      | [] => some (.encodeFrame p.1 false false)
      | [.comma, .ident "PRE"] => some (.encodeFrame p.1 true false)
      | [.comma, .ident "POST"] => some (.encodeFrame p.1 false true)
      | [.comma, .ident "PRE", .comma, .ident "POST"] => some (.encodeFrame p.1 true true)
      | _ => none
  | [.ident "GENERATE_LATCH"] => some .generateLatch
  | [.ident "CLEAR_ERROR"] => some .clearError
  | [.ident "SOFT_RESET"] => some .softReset
  | _ => none

/-- One statement of rules R89 to R95. -/
def parseStmt : List Token → Option SourceStmt
  | .ident "WR" :: rest => do
    let (a, rest) ← parseNumber rest
    let (v, rest) ← parseNextNumber rest
    if rest = [] then some (.wr a v) else none
  | .ident "RD" :: rest => do
    let (a, rest) ← parseNumber rest
    if rest = [] then some (.rd a) else none
  | .ident "EXPECT" :: rest => do
    let (a, rest) ← parseNumber rest
    let (m, rest) ← parseNextNumber rest
    let (v, rest) ← parseNextNumber rest
    if rest = [] then some (.expect a m v) else none
  | .ident "BNE" :: rest => do
    let (a, rest) ← parseNumber rest
    let (m, rest) ← parseNextNumber rest
    let (v, rest) ← parseNextNumber rest
    match rest with
    | [.comma, .ident label] => some (.bne a m v label)
    | _ => none
  | [.ident "HALT"] => some .halt
  | .ident "SETCFG" :: .ident name :: rest => do
    let r ← ConfigReg.all.find? fun r => r.name == name
    let (v, rest) ← parseNextNumber rest
    if rest = [] then some (.setCfg r v) else none
  | .ident "SETPIX" :: rest => do
    let (i, rest) ← parseNumber rest
    let (v0, rest) ← parseNextValue rest
    let (v1, rest) ← parseNextValue rest
    let (v2, rest) ← parseNextValue rest
    if rest = [] then some (.setPix i v0 v1 v2 none)
    else do
      let (v3, rest) ← parseNextValue rest
      if rest = [] then some (.setPix i v0 v1 v2 (some v3)) else none
  | [.ident "WAITIDLE"] => some .waitIdle
  | .ident "RUN" :: rest => (parseCommand rest).map .run
  | [.ident "CHECKOK"] => some .checkOk
  | rest => (parseCommand rest).map .command

/-- What follows the label of a line: nothing, or one statement. -/
def parseRest : List Token → Option (Option SourceStmt)
  | [] => some none
  | ts => (parseStmt ts).map some

/-- One line: an optional label at its start, then at most one statement (rule R88). -/
def parseLine (cs : List Char) : Option SourceLine :=
  (lex [] cs).bind fun ts =>
    match ts with
    | .ident label :: .colon :: rest => (parseRest rest).map fun st => ⟨some label, st⟩
    | ts => (parseRest ts).map fun st => ⟨none, st⟩

/-- The source lines of a list of lines, numbered from `k`. -/
def parseLines (k : Nat) : List (List Char) → Except AsmError (List SourceLine)
  | [] => .ok []
  | cs :: rest =>
    match parseLine cs with
    | none => .error (.badLine k)
    | some l => (parseLines (k + 1) rest).map fun ls => l :: ls

/-! ### Assembling (rules R89 to R95) -/

/-- How many primitive statements a source statement expands to (rules R90 to R95). -/
def SourceStmt.size : SourceStmt → Nat
  | .setPix _ _ _ _ none => 3
  | .setPix _ _ _ _ (some _) => 4
  | .run _ => 2
  | _ => 1

/-- How many primitive statements a line expands to. -/
def SourceLine.size (l : SourceLine) : Nat :=
  match l.stmt with
  | none => 0
  | some st => st.size

/-- How many primitive statements the lines expand to. -/
def programSize : List SourceLine → Nat
  | [] => 0
  | l :: ls => l.size + programSize ls

/-- The labels with the index of the next statement (rule R88), the first line starting at `k`. -/
def labelTable (k : Nat) : List SourceLine → List (String × Nat)
  | [] => []
  | l :: ls =>
    match l.label with
    | none => labelTable (k + l.size) ls
    | some name => (name, k) :: labelTable (k + l.size) ls

/-- The first name that occurs twice. -/
def firstDuplicate : List (String × Nat) → Option String
  | [] => none
  | (name, _) :: rest =>
    if rest.any fun p => p.1 == name then some name else firstDuplicate rest

/-- A number as a 32-bit word. -/
def asWord (n : Nat) : Except AsmError Word :=
  if n ≤ Config.wordMax then .ok (BitVec.ofNat 32 n) else .error (.valueOutOfRange n)

/-- A pixel value as a word: a negative value v is `v mod 2^32` (rule R92). -/
def pixelWord (v : Int) : Except AsmError Word :=
  if v < 0 then .ok (BitVec.ofInt 32 v) else asWord v.toNat

/-- A number as a bus address: the port has 21 address bits (rule R66). -/
def asAddr (n : Nat) : BusAddr := BitVec.ofNat 21 n

/-- `WR addr, value`. -/
def wrStmt (addr value : Nat) : Except AsmError HostStmt :=
  (asWord value).map fun w => .wr (asAddr addr) w

/-- The write of one channel value of `SETPIX` (rule R92). -/
def wrPixel (i c : Nat) (v : Int) : Except AsmError HostStmt :=
  (pixelWord v).map fun w => .wr (asAddr (Config.pixBase + 16 * i + 4 * c)) w

/-- A command mnemonic is one `WR CMD, word`; a pixel count that has no field is an assembly error
(rule R90). -/
def wrCommand (i : Instr) : Except AsmError HostStmt :=
  match i with
  | .encodeFrame n _ _ =>
    if i.wellFormed then .ok (.wr (asAddr Reg.cmd.offset) (encode i))
    else .error (.countOutOfRange n)
  | i => .ok (.wr (asAddr Reg.cmd.offset) (encode i))

/-- `WAITIDLE` at statement index `k`: `L: BNE 0x004, 0x1, 0x0, L` (rule R93). -/
def waitIdleAt (k : Nat) : HostStmt := .bne (asAddr Reg.status.offset) 0x1#32 0x0#32 k

/-- The expansion of a source statement whose first primitive has index `k` (rules R89 to R95). -/
def SourceStmt.expand (labels : List (String × Nat)) (k : Nat) :
    SourceStmt → Except AsmError (List HostStmt)
  | .wr a v => (wrStmt a v).map fun st => [st]
  | .rd a => .ok [.rd (asAddr a)]
  | .expect a m v => do
    let m ← asWord m
    let v ← asWord v
    pure [.expect (asAddr a) m v]
  | .bne a m v label => do
    let m ← asWord m
    let v ← asWord v
    match labels.lookup label with
    | none => .error (.labelNamesNothing label)
    | some target => pure [.bne (asAddr a) m v target]
  | .halt => .ok [.halt]
  | .command i => (wrCommand i).map fun st => [st]
  | .setCfg r v => (wrStmt r.offset v).map fun st => [st]
  | .setPix i v0 v1 v2 v3 => do
    let s0 ← wrPixel i 0 v0
    let s1 ← wrPixel i 1 v1
    let s2 ← wrPixel i 2 v2
    match v3 with
    | none => pure [s0, s1, s2]
    | some v => (wrPixel i 3 v).map fun s3 => [s0, s1, s2, s3]
  | .waitIdle => .ok [waitIdleAt k]
  | .run i => (wrCommand i).map fun st => [st, waitIdleAt (k + 1)]
  | .checkOk => .ok [.expect (asAddr Reg.result.offset) 0xFF#32 0x00#32]

/-- The expansion of lines, the first primitive having index `k`. -/
def expandLines (labels : List (String × Nat)) (k : Nat) :
    List SourceLine → Except AsmError (List HostStmt)
  | [] => .ok []
  | l :: ls => do
    let here ← match l.stmt with
      | none => pure []
      | some st => st.expand labels k
    let after ← expandLines labels (k + l.size) ls
    pure (here ++ after)

/-- The program of a list of source lines (rules R88 to R95). A label that names no statement is an
assembly error (rule R89). -/
def assemble (ls : List SourceLine) : Except AsmError (List HostStmt) :=
  let labels := labelTable 0 ls
  match firstDuplicate labels with
  | some name => .error (.duplicateLabel name)
  | none =>
    match labels.find? fun p => programSize ls ≤ p.2 with
    | some p => .error (.labelNamesNothing p.1)
    | none => expandLines labels 0 ls

/-- The program of a text (rules R88 to R95). -/
def assembleText (text : String) : Except AsmError (List HostStmt) :=
  match parseLines 0 (splitLines [] text.toList) with
  | .error e => .error e
  | .ok ls => assemble ls

end Sys2Proof.Machine
end

