-- ==== Sys2Proof/Machine/Line.lean ====
section
/-! DEFINITION. The output stream as the line sees it: the order of its physical bits (rule R68), the
durations of rules R15, R176 and R251, and the slot-aligned frame decoder of rule R160. No step reads
anything here. A statement about the line takes as its premise a Transport that clocks at BIT_RATE_HZ and
leaves no gap (rules R76, R241 and R242). -/

namespace Sys2Proof.Machine

/-- The physical bits of output bytes in line order: bit `8m + t` is bit `7 - t` of byte m
(rule R68). -/
def lineBits (bytes : List Byte) : List Bool := bytes.flatMap byteBits

/-- The physical bit period `P = D / rate` in ns, an exact rational (rules R15 and R101). -/
def ConfigRegs.bitPeriodNs (c : ConfigRegs) : ℚ :=
  (Config.nsPerSecond : ℚ) / (c.bitRateHz.toNat : ℚ)

/-- The time one logical bit lasts on the line: `L · P` (rule R251). -/
def ConfigRegs.slotNs (c : ConfigRegs) : ℚ := (c.patLen : ℚ) * c.bitPeriodNs

/-- The time a frame of N pixels lasts: `8 · N · C · L · P` (rule R251). -/
def ConfigRegs.frameNs (c : ConfigRegs) (n : Nat) : ℚ :=
  8 * (n : ℚ) * (c.chanCount : ℚ) * (c.patLen : ℚ) * c.bitPeriodNs

/-- The time a latch lasts: `8 · LATCH_BYTES · P` (rule R251). -/
def State.latchNs (s : State) : ℚ :=
  8 * (s.derived.latchBytes.toNat : ℚ) * s.cfg.bitPeriodNs

/-- The time bytes last on the line: `8 · P` for each (rule R250). -/
def ConfigRegs.bytesNs (c : ConfigRegs) (bytes : List Byte) : ℚ :=
  8 * (bytes.length : ℚ) * c.bitPeriodNs

/-- The number of consecutive ones from a bit list's first bit (rule R160). -/
def leadingOnes (bits : List Bool) : Nat := (bits.takeWhile id).length

/-- The number of consecutive zeros at a bit list's end: the low bits the line ends in (rule R176). -/
def trailingZeros (bits : List Bool) : Nat := (bits.reverse.takeWhile fun b => !b).length

/-- Slot s of a bit stream: bits `s·L` to `s·L + L - 1` (rule R160). -/
def slotAt (L : Nat) (bits : List Bool) (slot : Nat) : List Bool := (bits.drop (slot * L)).take L

/-- The logical bit of a slot: 1 when its run of ones is h_1, 0 when it is h_0 (rule R160). -/
def slotValue (h0 h1 : Nat) (slot : List Bool) : Option Bool :=
  if leadingOnes slot = h1 then some true
  else if leadingOnes slot = h0 then some false
  else none

/-- Channel value number m of a bit stream: its slots 8m to 8m+7, MSB first (rule R160). -/
def decodeChannel (L h0 h1 : Nat) (bits : List Bool) (m : Nat) : Option Byte :=
  ((List.range 8).mapM fun t => slotValue h0 h1 (slotAt L bits (8 * m + t))).map fun bs =>
    BitVec.ofNat 8 (bitsToNat bs)

/-- The frame decoder of rule R160 for N pixels: channel value number `i·C + k` is stored at pixel i,
tuple index `ORD_k`. None where a slot is neither pattern. -/
def ConfigRegs.decodeFrame (c : ConfigRegs) (h0 h1 n : Nat) (bytes : List Byte) :
    Option (List ((Nat × BitVec 2) × Byte)) :=
  (c.walk n).zipIdx.mapM fun p =>
    (decodeChannel c.patLen h0 h1 (lineBits bytes) p.2).map fun b => (p.1, b)

/-- HIGH_BITS.H0, bits [7:0] (rule R39). -/
def State.h0Field (s : State) : Nat := (s.derived.highBits.extractLsb' 0 8).toNat

/-- HIGH_BITS.H1, bits [15:8] (rule R39). -/
def State.h1Field (s : State) : Nat := (s.derived.highBits.extractLsb' 8 8).toNat

/-- HIGH_BITS.LOW0, bits [23:16] (rule R39). -/
def State.low0Field (s : State) : Nat := (s.derived.highBits.extractLsb' 16 8).toNat

/-- HIGH_BITS.LOW1, bits [31:24] (rule R39). -/
def State.low1Field (s : State) : Nat := (s.derived.highBits.extractLsb' 24 8).toNat

end Sys2Proof.Machine
end

