-- ==== Sys2Proof/Safety.lean ====
section
/-! DEFINITION. What counts as a safe run, in the terms the statements use: the invariant every step
keeps, several steps in a row, the end of a run with its observation (rule R252), and what a pending
command reads (rule R73). -/

namespace Sys2Proof.Machine

/-- The invariant of the machine. The derived registers are the derivation of the locked configuration
while CONFIGURED = 1 and 0 otherwise (rules R38, R39, R44, R51, R120 and R121); no failure is recorded
while CONFIGURED = 1, and no amount without a failure (rules R25 and R26); NPIX_MAX is a legal parameter
(rule R7); VAL_ERR_PIXEL is a pixel of the memory (rules R27 and R207); pixel memory is in its canonical
form and lists addresses of its own range only (rules R40 and R61). -/
structure State.Inv (s : State) : Prop where
  unconfigured_derived : s.configured = false → s.derived = .reset
  configured_derived : s.configured = true → ∃ d, s.cfg.derive = .ok d ∧ s.derived = d.regs
  configured_no_failure : s.configured = true → s.cfgErrCode = none
  no_failure_no_delta : s.cfgErrCode = none → s.cfgErrDelta = 0#32
  npixMax_pos : 1 ≤ s.npixMax.toNat
  valErrPixel_lt : s.valErrPixel.toNat < s.npixMax.toNat
  pix_wf : s.pix.wf
  pix_range : ∀ cell ∈ s.pix,
    Config.pixBase ≤ cell.1 ∧ cell.1 < Config.pixBase + 16 * s.npixMax.toNat

/-- One row of the table of rule R110: whether the check fails, its code, and for a bound check the
missed amount `x` in ns·Hz (rule R111). -/
structure CheckRow where
  fails : Bool
  code : BitVec 8
  miss : Option Int
deriving DecidableEq, Repr

/-- The fifteen rows of rule R110 in their order, read off the table and independent of
`ConfigRegs.derive`. `h v` and `l v` are the counts of rules R103 and R104, with `D = 10^9`. -/
def checkTable (c : ConfigRegs) : List CheckRow :=
  let D : Int := 1000000000
  let rate : Int := c.bitRateHz.toNat
  let L : Int := c.patternLen.toNat
  let C : Nat := c.chanCfg.toNat % 16
  let ords : List Nat := (List.range C).map fun k => c.chanCfg.toNat / 2 ^ (8 + 2 * k) % 4
  let latch : Nat :=
    (2048 * 1000000000 - 1 + c.tllMin.toNat * c.latchSf.toNat * c.bitRateHz.toNat) /
      (2048 * 1000000000)
  let h0 : Int := (D + 2 * (c.t0hTyp.toNat : Int) * rate) / (2 * D)
  let h1 : Int := (D + 2 * (c.t1hTyp.toNat : Int) * rate) / (2 * D)
  let l0 : Int := L - h0
  let l1 : Int := L - h1
  let bound (v : BitVec 8) (h l minH maxH : Int) : List CheckRow :=
    [⟨decide (D * h < minH * rate), v + 0x00#8, some (minH * rate - D * h)⟩,
      ⟨decide (D * h > maxH * rate), v + 0x01#8, some (D * h - maxH * rate)⟩,
      ⟨decide (D * l < c.tldMin.toNat * rate), v + 0x02#8, some (c.tldMin.toNat * rate - D * l)⟩,
      ⟨decide (D * l > c.tldMax.toNat * rate), v + 0x03#8, some (D * l - c.tldMax.toNat * rate)⟩]
  [⟨decide (rate = 0), 0x01#8, none⟩,
    ⟨decide (L < 1 ∨ L > 32), 0x02#8, none⟩,
    ⟨decide (¬ (C = 3 ∨ C = 4)), 0x03#8, none⟩,
    ⟨decide (¬ ords.Perm (List.range C)), 0x04#8, none⟩,
    ⟨decide (c.latchSf.toNat < 256), 0x05#8, none⟩,
    ⟨decide (latch > 2 ^ 32 - 1), 0x06#8, none⟩] ++
  bound 0x10#8 h0 l0 c.t0hMin.toNat c.t0hMax.toNat ++
  bound 0x20#8 h1 l1 c.t1hMin.toNat c.t1hMax.toNat ++
  [⟨decide (h0 = h1), 0x30#8, none⟩]

/-- CFG_ERR_DELTA for a row (rule R111): the miss in picoseconds, rounded up and saturated; 0 for a row
without an amount. -/
def CheckRow.deltaWord (row : CheckRow) (rate : Nat) : Word :=
  match row.miss with
  | none => 0#32
  | some x => BitVec.ofNat 32 (min ((rate - 1 + 1000 * x.toNat) / rate) (2 ^ 32 - 1))

/-- `k` steps in a row, stopping at a fault or refusal. -/
def runSteps (k : Nat) (s : State) : Result :=
  match k with
  | 0 => .next s
  | k + 1 =>
    match step s with
    | .next s' => runSteps k s'
    | .fault r => .fault r
    | .refused r => .refused r

/-- A run has ended: the program has stopped and nothing is pending (rule R252). -/
def State.RunEnded (s : State) : Prop := s.host.verdict ≠ none ∧ s.busy = false

/-- The observation of a run: the verdict, the registers of rule R50, PIX and OUT (rule R252). -/
structure Observation where
  verdict : Option Verdict
  regs : List Word
  pix : List (List Word)
  out : List Byte
deriving DecidableEq, Repr

/-- What a run that has ended shows (rule R252). -/
def State.observe (s : State) : Observation where
  verdict := s.host.verdict
  regs := Reg.all.map s.readReg
  pix := (List.range s.npixMax.toNat).map fun i =>
    [s.pixWord i 0#2, s.pixWord i 1#2, s.pixWord i 2#2, s.pixWord i 3#2]
  out := s.out

/-- Two states agree on everything a command reads and on all the block's state but BUSY_VIOLATION: they
may differ in that sticky flag, in the Host and in the input of turns (rules R65 and R73). -/
def State.SameBlock (s t : State) : Prop :=
  t = { s with busyViolation := t.busyViolation, host := t.host, turns := t.turns }

end Sys2Proof.Machine
end

