-- ==== Sys2Proof/Certificates/Slice0/Obligations.lean ====
section
/-! DEFINITION. The statements about the model, for the provers: one `def Obligations.<Name> : Prop` for
each entry of OBLIGATIONS.json. -/

open Sys2Proof Sys2Proof.Machine

/-! ### Command words -/

/-- The words of rule R86, with one word for each of the other rows of rule R83. -/
def Obligations.ExampleWordsDecode : Prop :=
  decode 0x00000001#32 = .ok .configure ∧
  decode 0x00010002#32 = .ok (.encodeFrame 1 false false) ∧
  decode 0x00010022#32 = .ok (.encodeFrame 1 false true) ∧
  decode 0x00030032#32 = .ok (.encodeFrame 3 true true) ∧
  decode 0x00000002#32 = .ok (.encodeFrame 0 false false) ∧
  decode 0x00000042#32 = .error (.illegal 0x2#4) ∧
  decode 0x00010001#32 = .error (.illegal 0x1#4) ∧
  decode 0x00000006#32 = .error (.illegal 0x6#4) ∧
  decode 0x00000000#32 = .ok .nop ∧
  decode 0x00000003#32 = .ok .generateLatch ∧
  decode 0x00000004#32 = .ok .clearError ∧
  decode 0x00000005#32 = .ok .softReset

/-- Rule R83: a word selects a command exactly when `(w AND mask) = match`, and no two rows overlap. The
operands are the fields of rule R82. -/
def Obligations.DecodeFollowsOpcodeMap : Prop :=
  ∀ w : Word,
    (decode w = .ok .nop ↔ w &&& 0xFFFFFFFF#32 = 0x00000000#32) ∧
    (decode w = .ok .configure ↔ w &&& 0xFFFFFFFF#32 = 0x00000001#32) ∧
    ((∃ n pre post, decode w = .ok (.encodeFrame n pre post)) ↔
      w &&& 0x0000FFCF#32 = 0x00000002#32) ∧
    (decode w = .ok .generateLatch ↔ w &&& 0xFFFFFFFF#32 = 0x00000003#32) ∧
    (decode w = .ok .clearError ↔ w &&& 0xFFFFFFFF#32 = 0x00000004#32) ∧
    (decode w = .ok .softReset ↔ w &&& 0xFFFFFFFF#32 = 0x00000005#32) ∧
    (∀ n pre post, decode w = .ok (.encodeFrame n pre post) →
      n = w.toNat / 2 ^ 16 ∧ pre = w.getLsbD 4 ∧ post = w.getLsbD 5) ∧
    (∀ i j : Instr, w &&& i.row.2 = i.row.1 → w &&& j.row.2 = j.row.1 →
      i.row = j.row ∧ w.extractLsb' 0 4 = i.op)

/-- Rules R85 and R186: which words are illegal, and what their completion does. -/
def Obligations.IllegalWordsCompleteWithoutEffect : Prop :=
  ∀ w : Word,
    (decode w = .error (.illegal (w.extractLsb' 0 4)) ↔
      (6 ≤ (w.extractLsb' 0 4).toNat ∨
        (w.extractLsb' 0 4 ≠ 0x2#4 ∧ w.extractLsb' 4 28 ≠ 0#28) ∨
        (w.extractLsb' 0 4 = 0x2#4 ∧ w.extractLsb' 6 10 ≠ 0#10))) ∧
    (∀ s : State, s.pending = some w →
      decode w = .error (.illegal (w.extractLsb' 0 4)) →
      s.encoderTurn = .next { s with
        pending := none
        resultCode := .illegalCmd
        lastOp := w.extractLsb' 0 4
        outLen := 0#32 }) ∧
  (∀ s : State, s.pending = some 0x00000042#32 →
    ∃ t, s.encoderTurn = .next t ∧ t.readReg .result = 0x00000205#32) ∧
  (∀ s : State, s.pending = some 0x0000000F#32 →
    ∃ t, s.encoderTurn = .next t ∧ t.readReg .result = 0x00000F05#32)

/-- Decoding the word of a well-formed command gives the command back, with every operand. -/
def Obligations.DecodeOfEncode : Prop :=
  ∀ i : Instr, i.WellFormed → decode (encode i) = .ok i

/-- A word that decodes to a command is that command's one word, and the command is well formed. -/
def Obligations.EncodeOfDecode : Prop :=
  ∀ (w : Word) (i : Instr), decode w = .ok i → i.WellFormed ∧ encode i = w

/-! ### The step -/

/-- The Encoder's turn runs the decoded command: `step` is `exec` of it once the turn is taken off the
input; a word that is no command completes as illegal (rules R43 and R80). With no input left the Encoder
moves while a command is pending (the model's choice, assumption log 3). -/
def Obligations.StepRunsDecodedCommand : Prop :=
  (∀ (s : State) (w : Word) (i : Instr), s.nextTurn = .encoder → s.pending = some w →
    decode w = .ok i → step s = exec i { s with turns := s.turns.tail }) ∧
  (∀ (s : State) (w : Word) (op : BitVec 4), s.nextTurn = .encoder → s.pending = some w →
    decode w = .error (.illegal op) → step s = execIllegal op { s with turns := s.turns.tail }) ∧
  (∀ (s : State) (w : Word), s.turns = [] → s.pending = some w → s.nextTurn = .encoder) ∧
  (∀ (s : State) (ts : List Turn), s.turns = .encoder :: ts → s.nextTurn = .encoder)

/-- Each turn of the input moves exactly the agent it names; an Encoder turn with nothing pending changes
nothing else (rules R43, R70, R219 and R230; the input itself is the model's, assumption log 3). -/
def Obligations.EachTurnMovesItsAgent : Prop :=
  ∀ (s : State) (ts : List Turn),
    step { s with turns := .host :: ts } = .next { s with turns := ts }.hostTurn ∧
    step { s with turns := .encoder :: ts } = { s with turns := ts }.encoderTurn ∧
    step { s with turns := .hardwareReset :: ts } = .next { s with turns := ts }.hardwareReset ∧
    (s.pending = none → step { s with turns := .encoder :: ts } = .next { s with turns := ts }) ∧
    (s.pending = none → step { s with turns := [] } = .next { s with turns := [] }.hostTurn)

/-- Rule R200: no state stops the machine, and a pending command always ends its Encoder turn. -/
def Obligations.MachineNeverStops : Prop :=
  (∀ s : State, ∃ t, step s = .next t) ∧
  (∀ (s : State) (w : Word), s.pending = some w →
    ∃ t, s.encoderTurn = .next t ∧ t.pending = none ∧ t.busy = false ∧
      t.lastOp = w.extractLsb' 0 4)

/-- The invariant is kept by every step from every state that meets it. -/
def Obligations.StepKeepsInvariant : Prop :=
  ∀ s t : State, s.Inv → step s = .next t → t.Inv

/-- The invariant holds after hardware reset, for every value of the open parameter NPIX_MAX. -/
def Obligations.ResetMeetsInvariant : Prop :=
  State.reset.Inv ∧ State.reset.pix.wf

/-! ### Reset -/

/-- Rule R49: the state after hardware reset. A byte of pixel memory is the free value of the
draw (assumption log 1). -/
def Obligations.ResetState : Prop :=
  (∀ r : Reg, r ≠ .npixMax → State.reset.readReg r = 0#32) ∧
  (1 ≤ (State.reset.readReg .npixMax).toNat ∧ (State.reset.readReg .npixMax).toNat ≤ 65535) ∧
  State.reset.pending = none ∧
  State.reset.configured = false ∧
  (∀ a, State.reset.pixByte a = Config.pixPowerOn 0 a) ∧
  State.reset.out = [] ∧
  (∀ (r : ConfigReg) (addr : BusAddr) (w : Word), addr.toNat = r.offset →
    (State.reset.memWrite addr w).readReg (.config r) = w)

/-- Hardware reset from any state, a pending command discarded (rule R230). The model's own: that the Host and
the turns still to come are as before (assumption log 6, DEDUCED), and the number of the new draw of pixel
memory (assumption log 1, DESIGN CHOICE). -/
def Obligations.HardwareResetFromAnyState : Prop :=
  ∀ (s : State) (ts : List Turn), ∃ t,
    step { s with turns := .hardwareReset :: ts } = .next t ∧
    (∀ r : Reg, r ≠ .npixMax → t.readReg r = 0#32) ∧
    t.readReg .npixMax = s.readReg .npixMax ∧
    t.pending = none ∧
    t.configured = false ∧
    (∀ a, t.pixByte a = Config.pixPowerOn (s.pixDraw + 1) a) ∧
    t.out = [] ∧
    t.host = s.host ∧
    t.turns = ts

/-! ### Control commands -/

/-- Rule R181: NOP writes RESULT and OUT_LEN and changes nothing else; it is pending, with the block busy,
from its CMD write to its step. -/
def Obligations.NopOnlyReportsOk : Prop :=
  decode 0x00000000#32 = .ok .nop ∧
  (∀ s : State, exec .nop s = .next { s with
    resultCode := .ok
    lastOp := 0x0#4
    outLen := 0#32
    pending := none }) ∧
  (∀ s : State, s.busy = false → (s.memWrite 0x000#21 0x00000000#32).busy = true) ∧
  (∀ (s : State) (addr : BusAddr) (v : Word), s.pending = some 0x00000000#32 →
    s.memWrite addr v = { s with busyViolation := true })

/-- Rule R183: CLEAR_ERROR clears the sticky flags and the error details, and nothing else but RESULT and
OUT_LEN; a write dropped while it is pending is cleared too. -/
def Obligations.ClearErrorClearsFlagsAndDetails : Prop :=
  decode 0x00000004#32 = .ok .clearError ∧
  (∀ s : State, exec .clearError s = .next { s with
    lockViolation := false
    busyViolation := false
    cfgErrCode := none
    cfgErrDelta := 0#32
    valErrPixel := 0#16
    valErrChannel := 0#2
    resultCode := .ok
    lastOp := 0x4#4
    outLen := 0#32
    pending := none }) ∧
  (∀ (s : State) (addr : BusAddr) (v : Word), s.pending = some 0x00000004#32 →
    (s.memWrite addr v).busyViolation = true ∧
      (s.memWrite addr v).encoderTurn = s.encoderTurn)

/-- Rule R185: SOFT_RESET resets every register but CMD and NPIX_MAX, keeps PIX and OUT, refuses frames and
latches afterwards, and is the only command that unlocks the configuration. -/
def Obligations.SoftResetResetsRegisters : Prop :=
  decode 0x00000005#32 = .ok .softReset ∧
  (∀ s : State, ∃ t, exec .softReset s = .next t ∧
    (∀ r : Reg, r ≠ .cmd → r ≠ .npixMax → r ≠ .result → t.readReg r = 0#32) ∧
    t.readReg .result = 0x00000500#32 ∧
    t.readReg .npixMax = s.readReg .npixMax ∧
    t.pending = none ∧
    t.pix = s.pix ∧
    (∀ a, t.pixByte a = s.pixByte a) ∧
    t.out = s.out ∧
    t.host = s.host ∧
    t.turns = s.turns ∧
    (∀ n pre post, ∃ u, exec (.encodeFrame n pre post) t = .next u ∧
      u.readReg .result = 0x00000203#32 ∧ u.out = t.out) ∧
    (∃ u, exec .generateLatch t = .next u ∧ u.readReg .result = 0x00000303#32 ∧ u.out = t.out)) ∧
  (∀ s t : State, s.configured = true → step s = .next t → t.configured = false →
    s.nextTurn = .hardwareReset ∨ (s.nextTurn = .encoder ∧ s.pending = some 0x00000005#32))

/-! ### CONFIGURE -/

/-- Rule R120: the three outcomes of CONFIGURE, its corner cases and its example. The pattern registers are
the sums of rule R120 over the bits of the derived patterns. -/
def Obligations.ConfigureOutcomes : Prop :=
  decode 0x00000001#32 = .ok .configure ∧
  (∀ s : State, s.configured = true → exec .configure s = .next { s with
    resultCode := .alreadyConfigured
    lastOp := 0x1#4
    outLen := 0#32
    pending := none }) ∧
  (∀ (s : State) (f : CfgFailure), s.configured = false → s.cfg.derive = .error f →
    exec .configure s = .next { s with
      cfgErrCode := some f.error
      cfgErrDelta := f.delta
      derived := ⟨0#32, 0#32, 0#32, 0#32⟩
      resultCode := .cfgError
      lastOp := 0x1#4
      outLen := 0#32
      pending := none }) ∧
  (∀ (s : State) (d : Derivation), s.configured = false → s.cfg.derive = .ok d →
    exec .configure s = .next { s with
      derived := {
        pattern0 := BitVec.ofNat 32 (∑ t ∈ Finset.range s.cfg.patternLen.toNat,
          (d.pat0.getD t false).toNat * 2 ^ (s.cfg.patternLen.toNat - 1 - t))
        pattern1 := BitVec.ofNat 32 (∑ t ∈ Finset.range s.cfg.patternLen.toNat,
          (d.pat1.getD t false).toNat * 2 ^ (s.cfg.patternLen.toNat - 1 - t))
        highBits := BitVec.ofInt 32
          ((d.h0 : Int) + 2 ^ 8 * (d.h1 : Int) + 2 ^ 16 * d.l0 + 2 ^ 24 * d.l1)
        latchBytes := BitVec.ofNat 32 d.latch }
      cfgErrCode := none
      cfgErrDelta := 0#32
      configured := true
      resultCode := .ok
      lastOp := 0x1#4
      outLen := 0#32
      pending := none }) ∧
  (∀ c : ConfigRegs, c.bitRateHz = 0#32 → c.derive = .error ⟨.rateZero, 0#32⟩) ∧
  (∀ c : ConfigRegs, c.bitRateHz ≠ 0#32 → c.patternLen = 33#32 →
    c.derive = .error ⟨.patternLen, 0#32⟩) ∧
  (∀ (c : ConfigRegs) (d : Derivation), c.derive = .ok d →
    (c.patternLen = 32#32 → d.h1 = 32 → c.tldMin = 0#32) ∧
    (c.tllMin = 0#32 → d.latch = 0)) ∧
  (∀ (c : ConfigRegs) (v : Bool) (f : CfgFailure), c.highBitsOf v = 0 → c.highMin v = 0 →
    c.boundCheck v = some f → ∀ side, f.error ≠ .bound v .high side) ∧
  (∀ (s : State) (d : Derivation), s.configured = false → s.cfg.derive = .ok d →
    s.cfg.bitRateHz = 8000000#32 → s.cfg.patternLen = 16#32 → s.cfg.t0hTyp = 350#32 →
    s.cfg.t1hTyp = 700#32 →
    ∃ t, exec .configure s = .next t ∧ t.readReg .pattern0 = 0x0000E000#32 ∧
      t.readReg .pattern1 = 0x0000FC00#32 ∧ t.readReg .highBits = 0x0A0D0603#32)

/-- Rule R121: what a failed CONFIGURE writes; the block stays unconfigured, frames and latches are refused,
and the configuration registers stay writable. -/
def Obligations.ConfigureFailureLeavesUnconfigured : Prop :=
  ∀ (s : State) (f : CfgFailure), s.configured = false → s.cfg.derive = .error f →
    ∃ t, exec .configure s = .next t ∧
      t.readReg .cfgErrCode = f.error.code.setWidth 32 ∧
      t.readReg .cfgErrDelta = f.delta ∧
      t.readReg .pattern0 = 0#32 ∧ t.readReg .pattern1 = 0#32 ∧
      t.readReg .highBits = 0#32 ∧ t.readReg .latchBytes = 0#32 ∧
      t.readReg .result = 0x00000101#32 ∧ t.readReg .outLen = 0#32 ∧
      t.configured = false ∧ t.cfg = s.cfg ∧
      (∀ n pre post, ∃ u, exec (.encodeFrame n pre post) t = .next u ∧
        u.readReg .result = 0x00000203#32 ∧ u.out = t.out) ∧
      (∃ u, exec .generateLatch t = .next u ∧ u.readReg .result = 0x00000303#32 ∧ u.out = t.out) ∧
      (∀ (r : ConfigReg) (addr : BusAddr) (w : Word), addr.toNat = r.offset →
        t.memWrite addr w = { t with cfg := t.cfg.set r w })

/-- Rules R110 and R111: CONFIGURE reports the first failing row of the table, with the amount of that row;
it succeeds exactly when no row fails. The amount of a failing row is positive. The codes in their order, what
their bits say, and the example of rule R111. -/
def Obligations.ConfigureReportsFirstFailedCheck : Prop :=
  ∀ s : State, s.configured = false → ∃ t, exec .configure s = .next t ∧
    (∀ row, (checkTable s.cfg).find? (fun r => r.fails) = some row →
      t.configured = false ∧ t.readReg .result = 0x00000101#32 ∧
      t.readReg .cfgErrCode = row.code.setWidth 32 ∧
      t.readReg .cfgErrDelta = row.deltaWord s.cfg.bitRateHz.toNat ∧
      (∀ x, row.miss = some x → 0 < x)) ∧
    ((checkTable s.cfg).find? (fun r => r.fails) = none →
      t.configured = true ∧ t.readReg .result = 0x00000100#32 ∧
      t.readReg .cfgErrCode = 0#32 ∧ t.readReg .cfgErrDelta = 0#32) ∧
    (checkTable s.cfg).map (fun r => r.code) =
      [0x01#8, 0x02#8, 0x03#8, 0x04#8, 0x05#8, 0x06#8, 0x10#8, 0x11#8, 0x12#8, 0x13#8, 0x20#8, 0x21#8,
        0x22#8, 0x23#8, 0x30#8] ∧
    (∀ (v : Bool) (part : SlotPart) (side : BoundSide),
      let code := (CfgError.bound v part side).code
      (code.extractLsb' 4 4).toNat = v.toNat + 1 ∧ code.getLsbD 1 = decide (part = .low) ∧
        code.getLsbD 0 = decide (side = .aboveMax)) ∧
    (⟨true, 0x22#8, some (450 * 8000000 - 2 * 1000000000)⟩ : CheckRow).deltaWord 8000000 = 200000#32

/-- Rule R103: the high count is the typical high time over the period, rounded half up, and TLD_TYP is
never used. -/
def Obligations.HighBitsRoundHalfUp : Prop :=
  (∀ (c : ConfigRegs) (v : Bool), c.bitRateHz ≠ 0#32 →
    (c.highBitsOf v : Int) =
      ⌊((if v then c.t1hTyp.toNat else c.t0hTyp.toNat : Nat) : ℚ) / c.bitPeriodNs + 1 / 2⌋) ∧
  (∀ (c : ConfigRegs) (w : Word), ({ c with tldTyp := w } : ConfigRegs).derive = c.derive)

/-- Rule R113: a derivation that succeeds has counts in 0 to L that add up to L, so each pattern has exactly
L bits and fits its register; a negative low count never passes. -/
def Obligations.DerivedCountsFitPattern : Prop :=
  ∀ (c : ConfigRegs) (d : Derivation), c.derive = .ok d →
    (d.h0 ≤ c.patternLen.toNat ∧ 0 ≤ d.l0 ∧ d.l0 ≤ c.patternLen.toNat ∧
      (d.h0 : Int) + d.l0 = c.patternLen.toNat) ∧
    (d.h1 ≤ c.patternLen.toNat ∧ 0 ≤ d.l1 ∧ d.l1 ≤ c.patternLen.toNat ∧
      (d.h1 : Int) + d.l1 = c.patternLen.toNat) ∧
    d.pat0.length = c.patternLen.toNat ∧ d.pat1.length = c.patternLen.toNat ∧
    bitsToNat d.pat0 < 2 ^ c.patternLen.toNat ∧ bitsToNat d.pat1 < 2 ^ c.patternLen.toNat ∧
    c.patternLen.toNat ≤ 32

/-- Rule R114: the simulated patterns meet every timing window. The high time of a pattern is its run of
leading ones, the low time its run of trailing zeros, each times the period. -/
def Obligations.DerivedPatternsMeetWindows : Prop :=
  ∀ (c : ConfigRegs) (d : Derivation), c.derive = .ok d →
    ((c.t0hMin.toNat : ℚ) ≤ leadingOnes d.pat0 * c.bitPeriodNs ∧
      leadingOnes d.pat0 * c.bitPeriodNs ≤ c.t0hMax.toNat ∧
      (c.tldMin.toNat : ℚ) ≤ trailingZeros d.pat0 * c.bitPeriodNs ∧
      trailingZeros d.pat0 * c.bitPeriodNs ≤ c.tldMax.toNat) ∧
    ((c.t1hMin.toNat : ℚ) ≤ leadingOnes d.pat1 * c.bitPeriodNs ∧
      leadingOnes d.pat1 * c.bitPeriodNs ≤ c.t1hMax.toNat ∧
      (c.tldMin.toNat : ℚ) ≤ trailingZeros d.pat1 * c.bitPeriodNs ∧
      trailingZeros d.pat1 * c.bitPeriodNs ≤ c.tldMax.toNat)

/-- Rule R115: the two patterns differ, and each is its run of ones followed by its run of zeros. -/
def Obligations.DerivedPatternsDiffer : Prop :=
  ∀ (c : ConfigRegs) (d : Derivation), c.derive = .ok d →
    d.pat0 ≠ d.pat1 ∧
    d.pat0 = List.replicate d.h0 true ++ List.replicate d.l0.toNat false ∧
    d.pat1 = List.replicate d.h1 true ++ List.replicate d.l1.toNat false ∧
    leadingOnes d.pat0 = d.h0 ∧ leadingOnes d.pat1 = d.h1 ∧
    (trailingZeros d.pat0 : Int) = d.l0 ∧ (trailingZeros d.pat1 : Int) = d.l1

/-- Rule R117: a period above the T0H maximum always fails when T0H_MIN > 0, with code 0x10 or 0x11 once the
field checks pass (0x11 for a window whose MIN is not above its MAX); with T0H_MIN = 0 and h_0 = 0 the
high-time check of the 0 code passes, with a pattern of zeros. -/
def Obligations.TooCoarseRateFails : Prop :=
  ∀ c : ConfigRegs, c.bitRateHz ≠ 0#32 → c.t0hTyp.toNat ≤ c.t0hMax.toNat →
    (c.t0hMax.toNat : ℚ) < c.bitPeriodNs →
    (c.highBitsOf false = 0 ∨ c.highBitsOf false = 1) ∧
    (0 < c.t0hMin.toNat → ∃ f, c.derive = .error f ∧
      (c.fieldCheck = none → c.highBitsOf false = 0 → f.error.code = 0x10#8) ∧
      (c.fieldCheck = none → c.highBitsOf false = 1 → c.t0hMin.toNat ≤ c.t0hMax.toNat →
        f.error.code = 0x11#8)) ∧
    (c.t0hMin = 0#32 → c.highBitsOf false = 0 →
      (∀ f, c.boundCheck false = some f → f.error.code ≠ 0x10#8 ∧ f.error.code ≠ 0x11#8) ∧
      c.patternOf false = List.replicate c.patternLen.toNat false)

/-- The configuration bits no rule uses do not matter: TLD_TYP, CHAN_CFG bits [7:4] and [31:16], and ORD3 when
COUNT = 3 (rules R32 and R100, row I13). -/
def Obligations.DeriveIgnoresUnusedBits : Prop :=
  ∀ (c : ConfigRegs) (x : Word),
    x.extractLsb' 0 4 = c.chanCfg.extractLsb' 0 4 →
    x.extractLsb' 8 6 = c.chanCfg.extractLsb' 8 6 →
    (c.chanCfg.extractLsb' 0 4 = 0x4#4 → x.extractLsb' 14 2 = c.chanCfg.extractLsb' 14 2) →
    ({ c with chanCfg := x } : ConfigRegs).derive = c.derive ∧
    (∀ w, ({ c with tldTyp := w } : ConfigRegs).derive = c.derive) ∧
    (x.extractLsb' 0 4 = 0x3#4 ∨ x.extractLsb' 0 4 = 0x4#4 →
      ({ c with chanCfg := x } : ConfigRegs).order = c.order)

/-- The derived registers after a successful CONFIGURE, read field by field: the four counts of HIGH_BITS, the
pattern bits with the first-sent bit in bit L-1 and nothing above, and LATCH_BYTES without wrapping (rules
R38, R39, R44 and R170). -/
def Obligations.DerivedRegisterFields : Prop :=
  ∀ (s : State) (d : Derivation), s.configured = false → s.cfg.derive = .ok d →
    ∃ t, exec .configure s = .next t ∧
      t.h0Field = d.h0 ∧ t.h1Field = d.h1 ∧
      (t.low0Field : Int) = d.l0 ∧ (t.low1Field : Int) = d.l1 ∧
      (∀ k, k < s.cfg.patternLen.toNat →
        t.derived.pattern0.getLsbD (s.cfg.patternLen.toNat - 1 - k) = decide (k < d.h0) ∧
        t.derived.pattern1.getLsbD (s.cfg.patternLen.toNat - 1 - k) = decide (k < d.h1)) ∧
      (∀ k, s.cfg.patternLen.toNat ≤ k →
        t.derived.pattern0.getLsbD k = false ∧ t.derived.pattern1.getLsbD k = false) ∧
      t.derived.latchBytes.toNat =
        ⌈((s.cfg.tllMin.toNat : ℚ) * ((s.cfg.latchSf.toNat : ℚ) / 256)) /
          (s.cfg.bitPeriodNs * 8)⌉₊

/-- Rule R172: after a successful CONFIGURE the latch is long enough for the minimum times the safety factor,
is the shortest that is, and is at least TLL_MIN long. -/
def Obligations.LatchIsLeastSufficient : Prop :=
  ∀ (s : State) (d : Derivation), s.configured = false → s.cfg.derive = .ok d →
    ∃ t, exec .configure s = .next t ∧
      (t.cfg.tllMin.toNat : ℚ) * t.cfg.latchSf.toNat / 256 ≤ t.latchNs ∧
      (0 < t.derived.latchBytes.toNat →
        ((t.derived.latchBytes.toNat : ℚ) - 1) * 8 * t.cfg.bitPeriodNs <
          (t.cfg.tllMin.toNat : ℚ) * t.cfg.latchSf.toNat / 256) ∧
      (t.cfg.tllMin.toNat : ℚ) ≤ t.latchNs

/-! ### ENCODE_FRAME -/

/-- Rule R148: ENCODE_FRAME in the order of its checks; the first illegal word in transmission order is
reported, and on legal words it emits the frame with its latches in one step. A channel word is legal when its signed value is in 0 to 255, and only words with i < N and c among
the C channels of the order are looked at (rule R145). -/
def Obligations.EncodeFrameOutcomes : Prop :=
  (∀ w : Word, w &&& 0x0000FFCF#32 = 0x00000002#32 →
    decode w = .ok (.encodeFrame (w.extractLsb' 16 16).toNat (w.getLsbD 4) (w.getLsbD 5))) ∧
  ∀ (s : State) (n : Nat) (pre post : Bool),
    (s.configured = false → exec (.encodeFrame n pre post) s = .next { s with
      resultCode := .notConfigured
      lastOp := 0x2#4
      outLen := 0#32
      pending := none }) ∧
    (s.configured = true → s.npixMax.toNat < n → exec (.encodeFrame n pre post) s = .next { s with
      resultCode := .countError
      lastOp := 0x2#4
      outLen := 0#32
      pending := none }) ∧
    (s.configured = true → n ≤ s.npixMax.toNat → ∀ i k, i < n → k < s.cfg.chanCount →
      ((s.pixWord i (s.cfg.ord k)).toInt < 0 ∨ 255 < (s.pixWord i (s.cfg.ord k)).toInt) →
      (∀ i' k', k' < s.cfg.chanCount → (i' < i ∨ (i' = i ∧ k' < k)) →
        0 ≤ (s.pixWord i' (s.cfg.ord k')).toInt ∧ (s.pixWord i' (s.cfg.ord k')).toInt ≤ 255) →
      exec (.encodeFrame n pre post) s = .next { s with
        valErrPixel := BitVec.ofNat 16 i
        valErrChannel := s.cfg.ord k
        resultCode := .valueError
        lastOp := 0x2#4
        outLen := 0#32
        pending := none }) ∧
    (s.configured = true → n ≤ s.npixMax.toNat →
      (∀ i k, i < n → k < s.cfg.chanCount →
        0 ≤ (s.pixWord i (s.cfg.ord k)).toInt ∧ (s.pixWord i (s.cfg.ord k)).toInt ≤ 255) →
      exec (.encodeFrame n pre post) s = .next { s with
        out := s.out ++
          ((if pre then List.replicate s.derived.latchBytes.toNat 0x00#8 else []) ++
            pack (s.encodeBits n) ++
            (if post then List.replicate s.derived.latchBytes.toNat 0x00#8 else []))
        outLen := BitVec.ofNat 32
          (((if pre then List.replicate s.derived.latchBytes.toNat 0x00#8 else []) ++
            pack (s.encodeBits n) ++
            (if post then List.replicate s.derived.latchBytes.toNat 0x00#8 else [])).length)
        resultCode := .ok
        lastOp := 0x2#4
        pending := none })

/-- Rule R146: the first illegal word in transmission order is the one reported, and nothing else is
written. -/
def Obligations.ValueErrorNamesFirstIllegalWord : Prop :=
  ∀ (s : State) (n i k : Nat) (pre post : Bool), s.configured = true → n ≤ s.npixMax.toNat →
    i < n → k < s.cfg.chanCount →
    ((s.pixWord i (s.cfg.ord k)).toInt < 0 ∨ 255 < (s.pixWord i (s.cfg.ord k)).toInt) →
    (∀ i' k', k' < s.cfg.chanCount → (i' < i ∨ (i' = i ∧ k' < k)) →
      0 ≤ (s.pixWord i' (s.cfg.ord k')).toInt ∧ (s.pixWord i' (s.cfg.ord k')).toInt ≤ 255) →
    ∃ t, exec (.encodeFrame n pre post) s = .next t ∧
      t.readReg .valErrPixel = BitVec.ofNat 32 i ∧
      t.readReg .valErrChannel = (s.cfg.ord k).setWidth 32 ∧
      t.readReg .result = 0x00000202#32 ∧
      t.readReg .outLen = 0#32 ∧
      t = { s with
        valErrPixel := t.valErrPixel
        valErrChannel := t.valErrChannel
        resultCode := .valueError
        lastOp := 0x2#4
        outLen := 0#32
        pending := none }

/-- Rule R150: the byte-exact size law. -/
def Obligations.FrameSizeLaw : Prop :=
  ∀ (s t : State) (n : Nat) (pre post : Bool),
    exec (.encodeFrame n pre post) s = .next t → t.resultCode = .ok →
    t.out.length = s.out.length + n * s.cfg.chanCount * s.cfg.patternLen.toNat +
      (pre.toNat + post.toNat) * s.derived.latchBytes.toNat ∧
    (s.frameBytes n).length = n * s.cfg.chanCount * s.cfg.patternLen.toNat ∧
    (s.encodeBits n).length = n * s.cfg.chanCount * 8 * s.cfg.patternLen.toNat

/-- Rule R151: which physical bit carries which pattern bit, in the bytes of the frame part, and that the L
bytes of one channel depend on that channel's value alone. -/
def Obligations.FrameBitPlacement : Prop :=
  (∀ (s : State) (n i k j t : Nat), i < n → k < s.cfg.chanCount → j < 8 →
    t < s.cfg.patternLen.toNat →
    let q := (i * s.cfg.chanCount + k) * s.cfg.patternLen.toNat * 8 +
      ((7 - j) * s.cfg.patternLen.toNat + t)
    ((s.frameBytes n).getD (q / 8) 0#8).getLsbD (7 - q % 8) =
      (if (s.pixWord i (s.cfg.ord k)).getLsbD j then s.derived.pattern1
        else s.derived.pattern0).getLsbD (s.cfg.patternLen.toNat - 1 - t)) ∧
  (∀ (s u : State) (n i k : Nat), i < n → k < s.cfg.chanCount → u.cfg = s.cfg →
    u.derived = s.derived → channelByte (u.pixWord i (s.cfg.ord k)) = channelByte (s.pixWord i (s.cfg.ord k)) →
    ((u.frameBytes n).drop ((i * s.cfg.chanCount + k) * s.cfg.patternLen.toNat)).take
        s.cfg.patternLen.toNat =
      ((s.frameBytes n).drop ((i * s.cfg.chanCount + k) * s.cfg.patternLen.toNat)).take
        s.cfg.patternLen.toNat)

/-- Rule R152: the empty frame. -/
def Obligations.EmptyFrameIsNoError : Prop :=
  ∀ (s : State) (pre post : Bool), s.configured = true →
    ∃ t, exec (.encodeFrame 0 pre post) s = .next t ∧
      t.readReg .result = 0x00000200#32 ∧
      t.out = s.out ++
        List.replicate ((pre.toNat + post.toNat) * s.derived.latchBytes.toNat) 0x00#8 ∧
      (pre = false → post = false → t.out = s.out ∧ t.readReg .outLen = 0#32)

/-- Rule R153: ENCODE_FRAME depends on the configuration, the derived registers, NPIX_MAX and the words with
i < N and c < C alone, and changes nothing else than RESULT, OUT_LEN, the ValueError registers and OUT. The
premise that the state meets the invariant rules out channel orders no CONFIGURE accepts. -/
def Obligations.EncodeFrameIsDeterministic : Prop :=
  ∀ (s u : State) (n : Nat) (pre post : Bool), s.Inv →
    u.configured = s.configured → u.cfg = s.cfg → u.derived = s.derived → u.npixMax = s.npixMax →
    (∀ (i : Nat) (c : BitVec 2), i < n → c.toNat < s.cfg.chanCount → u.pixWord i c = s.pixWord i c) →
    ∃ s' u' bytes, exec (.encodeFrame n pre post) s = .next s' ∧
      exec (.encodeFrame n pre post) u = .next u' ∧
      s'.out = s.out ++ bytes ∧ u'.out = u.out ++ bytes ∧
      s'.readReg .result = u'.readReg .result ∧ s'.readReg .outLen = u'.readReg .outLen ∧
      (s'.resultCode = .valueError →
        s'.valErrPixel = u'.valErrPixel ∧ s'.valErrChannel = u'.valErrChannel) ∧
      s' = { s with
        out := s'.out
        outLen := s'.outLen
        resultCode := s'.resultCode
        lastOp := s'.lastOp
        valErrPixel := s'.valErrPixel
        valErrChannel := s'.valErrChannel
        pending := none }

/-- Rule R154: a frame issued without POST and then GENERATE_LATCH append the same bytes as the frame with
POST; a leading latch comes first. -/
def Obligations.FrameThenLatchEqualsPost : Prop :=
  ∀ (s t : State) (n : Nat) (pre : Bool),
    exec (.encodeFrame n pre false) s = .next t → t.resultCode = .ok →
    ∃ u v, exec .generateLatch t = .next u ∧ exec (.encodeFrame n pre true) s = .next v ∧
      v.resultCode = .ok ∧ u.resultCode = .ok ∧ v.out = u.out ∧
      (pre = true → ∃ rest, t.out =
        s.out ++ List.replicate s.derived.latchBytes.toNat 0x00#8 ++ rest ∧
          rest.length = n * s.cfg.chanCount * s.cfg.patternLen.toNat)

/-- The round trip of rule R160: for every legal pixel contents the slot-aligned decoder, given the counts that
HIGH_BITS reports, recovers every channel value from the frame part of the output. -/
def Obligations.FrameRoundTrip : Prop :=
  ∀ (s : State) (n : Nat) (pre post : Bool), s.Inv → s.configured = true → n ≤ s.npixMax.toNat →
    (∀ (i : Nat) (c : BitVec 2), i < n → c.toNat < s.cfg.chanCount → channelLegal (s.pixWord i c) = true) →
    ∃ t entries, exec (.encodeFrame n pre post) s = .next t ∧ t.resultCode = .ok ∧
      s.cfg.decodeFrame s.h0Field s.h1Field n
        ((t.out.drop (s.out.length + pre.toNat * s.derived.latchBytes.toNat)).take
          (n * s.cfg.chanCount * s.cfg.patternLen.toNat)) = some entries ∧
      ∀ (i : Nat) (c : BitVec 2), i < n → c.toNat < s.cfg.chanCount →
        ∃ b, entries.lookup (i, c) = some b ∧ b.toNat = (s.pixWord i c).toNat

/-! ### GENERATE_LATCH and the line -/

/-- Rule R171: GENERATE_LATCH appends LATCH_BYTES zero bytes and reports their count; it is refused while
unconfigured. -/
def Obligations.GenerateLatchEmitsZeros : Prop :=
  decode 0x00000003#32 = .ok .generateLatch ∧
  (∀ s : State, s.configured = true → exec .generateLatch s = .next { s with
    out := s.out ++ List.replicate s.derived.latchBytes.toNat 0x00#8
    outLen := s.derived.latchBytes
    resultCode := .ok
    lastOp := 0x3#4
    pending := none }) ∧
  (∀ s : State, s.configured = false → exec .generateLatch s = .next { s with
    resultCode := .notConfigured
    lastOp := 0x3#4
    outLen := 0#32
    pending := none })

/-- The low run of the line after a frame with a trailing latch (rule R176): at least the low count of the last
logical bit plus eight bits for each latch byte, and exactly that when the last slot has a high bit at all. -/
def Obligations.LatchLowRunAfterFrame : Prop :=
  ∀ (s t : State) (n : Nat) (pre : Bool), s.Inv → 0 < n →
    exec (.encodeFrame n pre true) s = .next t → t.resultCode = .ok →
    let last := (s.pixWord (n - 1) (s.cfg.ord (s.cfg.chanCount - 1))).getLsbD 0
    ((if last then s.low1Field else s.low0Field) + 8 * s.derived.latchBytes.toNat ≤
      trailingZeros (lineBits t.out)) ∧
    (0 < (if last then s.h1Field else s.h0Field) →
      trailingZeros (lineBits t.out) =
        (if last then s.low1Field else s.low0Field) + 8 * s.derived.latchBytes.toNat)

/-- The line time of what a successful ENCODE_FRAME appends is that of its frame and its latches (rule R251),
taken at 8 · P a byte (rule R250). -/
def Obligations.EmittedTimeIsFramePlusLatches : Prop :=
  ∀ (s t : State) (n : Nat) (pre post : Bool),
    exec (.encodeFrame n pre post) s = .next t → t.resultCode = .ok →
    ∃ bytes, t.out = s.out ++ bytes ∧
      s.cfg.bytesNs bytes = s.cfg.frameNs n + ((pre.toNat + post.toNat : Nat) : ℚ) * s.latchNs

/-! ### Errors and frames of all commands -/

/-- Rules R206, R207 and R208: the three command errors write RESULT and OUT_LEN and nothing else. -/
def Obligations.CommandErrorsWriteResultOnly : Prop :=
  (∀ (s : State) (n : Nat) (pre post : Bool), s.configured = false →
    exec (.encodeFrame n pre post) s = .next { s with
      resultCode := .notConfigured, lastOp := 0x2#4, outLen := 0#32, pending := none } ∧
    exec .generateLatch s = .next { s with
      resultCode := .notConfigured, lastOp := 0x3#4, outLen := 0#32, pending := none }) ∧
  (∀ (s : State) (n : Nat) (pre post : Bool), s.configured = true → s.npixMax.toNat < n →
    exec (.encodeFrame n pre post) s = .next { s with
      resultCode := .countError, lastOp := 0x2#4, outLen := 0#32, pending := none }) ∧
  (∀ s : State, s.configured = true → exec .configure s = .next { s with
    resultCode := .alreadyConfigured, lastOp := 0x1#4, outLen := 0#32, pending := none })

/-- Rule R204: a command that raises an error writes RESULT, OUT_LEN and the detail registers of its row, and
nothing else. The premise that the state meets the invariant says that the derived registers, which rule R121
sets to 0, are 0 already. -/
def Obligations.FailedCommandHasNoPartialEffect : Prop :=
  (∀ (s t : State) (i : Instr), s.Inv → exec i s = .next t → t.resultCode ≠ .ok →
    t = { s with
      resultCode := t.resultCode
      lastOp := i.op
      outLen := 0#32
      pending := none
      cfgErrCode := t.cfgErrCode
      cfgErrDelta := t.cfgErrDelta
      valErrPixel := t.valErrPixel
      valErrChannel := t.valErrChannel } ∧
    (t.resultCode ≠ .cfgError → t.cfgErrCode = s.cfgErrCode ∧ t.cfgErrDelta = s.cfgErrDelta) ∧
    (t.resultCode ≠ .valueError →
      t.valErrPixel = s.valErrPixel ∧ t.valErrChannel = s.valErrChannel)) ∧
  (∀ (s : State) (w : Word) (op : BitVec 4), s.pending = some w → decode w = .error (.illegal op) →
    s.encoderTurn = .next { s with
      resultCode := .illegalCmd
      lastOp := op
      outLen := 0#32
      pending := none })

/-- Rule R210: which error a command reports when several apply. -/
def Obligations.ErrorPriority : Prop :=
  (∀ (s : State) (w : Word), s.pending = some w → (∀ i, decode w ≠ .ok i) →
    ∃ t, s.encoderTurn = .next t ∧ t.resultCode = .illegalCmd) ∧
  (∀ s : State, ∃ t, exec .configure s = .next t ∧
    t.resultCode = (if s.configured = true then .alreadyConfigured
      else if (checkTable s.cfg).any (fun r => r.fails) then .cfgError else .ok)) ∧
  (∀ (s : State) (n : Nat) (pre post : Bool), ∃ t, exec (.encodeFrame n pre post) s = .next t ∧
    t.resultCode = (if s.configured = false then .notConfigured
      else if s.npixMax.toNat < n then .countError
      else if (s.cfg.walk n).all (fun p => channelLegal (s.pixWord p.1 p.2)) = false then .valueError
      else .ok)) ∧
  (∀ s : State, ∃ t, exec .generateLatch s = .next t ∧
    t.resultCode = (if s.configured = false then .notConfigured else .ok))

/-- What each command leaves unchanged when it ends, whatever its outcome: the columns of rule R48, the pixel
memory byte by byte, NPIX_MAX, the Host and the input of turns; and that bytes are only appended. -/
def Obligations.CommandFrame : Prop :=
  ∀ (s t : State) (i : Instr), exec i s = .next t →
    t.npixMax = s.npixMax ∧ t.pix = s.pix ∧ (∀ a, t.pixByte a = s.pixByte a) ∧
    t.host = s.host ∧ t.turns = s.turns ∧ t.pending = none ∧ t.lastOp = i.op ∧
    (i ≠ .softReset → t.cfg = s.cfg) ∧
    (i ≠ .softReset → i ≠ .configure → t.configured = s.configured ∧ t.derived = s.derived) ∧
    (i ≠ .softReset → i ≠ .configure → i ≠ .clearError →
      t.cfgErrCode = s.cfgErrCode ∧ t.cfgErrDelta = s.cfgErrDelta) ∧
    (i ≠ .softReset → i ≠ .clearError → (∀ n pre post, i ≠ .encodeFrame n pre post) →
      t.valErrPixel = s.valErrPixel ∧ t.valErrChannel = s.valErrChannel) ∧
    (i ≠ .softReset → i ≠ .clearError →
      t.lockViolation = s.lockViolation ∧ t.busyViolation = s.busyViolation) ∧
    (i ≠ .generateLatch → (∀ n pre post, i ≠ .encodeFrame n pre post) →
      t.out = s.out ∧ t.outLen = 0#32) ∧
    (∃ bytes, t.out = s.out ++ bytes ∧ t.outLen = BitVec.ofNat 32 bytes.length)

/-! ### Status and bus port -/

/-- Rules R22 and R23: the bits of STATUS and RESULT as the Host reads them. -/
def Obligations.StatusAndResultLayout : Prop :=
  ∀ s : State,
    (s.readReg .status).toNat = (if s.pending = none then 0 else 1) + 2 * s.configured.toNat +
      4 * s.lockViolation.toNat + 8 * s.busyViolation.toNat ∧
    (s.readReg .result).toNat = s.resultCode.code.toNat + 256 * s.lastOp.toNat

/-- Rule R63: the five cases of a Host write, in their order. -/
def Obligations.HostWriteCases : Prop :=
  ∀ (s : State) (addr : BusAddr) (w : Word),
    let a := addr.toNat / 4 * 4
    (s.busy = true → s.memWrite addr w = { s with busyViolation := true }) ∧
    (s.busy = false →
      (a = 0x000 → s.memWrite addr w = { s with pending := some w }) ∧
      (∀ r : ConfigReg, a = r.offset → s.memWrite addr w =
        if s.configured then { s with lockViolation := true }
        else { s with cfg := s.cfg.set r w }) ∧
      (∀ (i : Nat) (c : BitVec 2), i < s.npixMax.toNat → a = 0x100000 + 16 * i + 4 * c.toNat →
        s.memWrite addr w = s.storePix i c w) ∧
      ((4 ≤ a ∧ a < 0x040) ∨ (0x078 ≤ a ∧ a < 0x100000) ∨ 0x100000 + 16 * s.npixMax.toNat ≤ a →
        s.memWrite addr w = s))

/-- Rule R62: what a Host read answers, at every address; it changes nothing but the Host's own counter, and
is answered while a command is pending too. -/
def Obligations.HostReadCases : Prop :=
  ∀ (s : State) (addr : BusAddr),
    let a := addr.toNat / 4 * 4
    (∀ r : Reg, a = r.offset → s.memRead addr = s.readReg r) ∧
    (a = 0x000 → s.memRead addr = 0#32) ∧
    (∀ (i : Nat) (c : BitVec 2), i < s.npixMax.toNat → a = 0x100000 + 16 * i + 4 * c.toNat →
      s.memRead addr = s.pixWord i c) ∧
    ((0x034 ≤ a ∧ a < 0x040) ∨ (0x078 ≤ a ∧ a < 0x100000) ∨ 0x100000 + 16 * s.npixMax.toNat ≤ a →
      s.memRead addr = 0#32) ∧
    (HostStmt.rd addr).run s = { s with host := { s.host with hpc := s.host.hpc + 1 } }

/-- Rule R50: the offsets of the register map. -/
def Obligations.RegisterMapOffsets : Prop :=
  Reg.all.map Reg.offset =
    [0x000, 0x004, 0x008, 0x00C, 0x010, 0x014, 0x018, 0x01C, 0x020, 0x024, 0x028, 0x02C, 0x030,
      0x040, 0x044, 0x048, 0x04C, 0x050, 0x054, 0x058, 0x05C, 0x060, 0x064, 0x068, 0x06C, 0x070,
      0x074] ∧
  (∀ r : Reg, r ∈ Reg.all)

/-- A pixel word written by an idle Host reads back as written, at each of the byte addresses of the word, and
every other word of the bus port reads as before (rules R63, R66 and R69). -/
def Obligations.PixelWriteReadsBack : Prop :=
  ∀ (s : State) (addr addr' : BusAddr) (w : Word), s.busy = false → 0x100000 ≤ addr.toNat →
    addr.toNat < 0x100000 + 16 * s.npixMax.toNat →
    (addr'.toNat / 4 = addr.toNat / 4 → (s.memWrite addr w).memRead addr' = w) ∧
    (addr'.toNat / 4 ≠ addr.toNat / 4 → (s.memWrite addr w).memRead addr' = s.memRead addr')

/-- Rule R37: the configuration lock. While configured a write sets the sticky flag and changes no register;
while unconfigured it stores the word in that register alone; only SOFT_RESET and hardware reset unlock; the
pixel memory is never locked. -/
def Obligations.ConfigurationLock : Prop :=
  (∀ (s : State) (r : ConfigReg) (addr : BusAddr) (w : Word), s.busy = false →
    addr.toNat / 4 * 4 = r.offset →
    (s.configured = true → s.memWrite addr w = { s with lockViolation := true }) ∧
    (s.configured = false → (s.memWrite addr w).readReg (.config r) = w ∧
      ∀ r' : Reg, r' ≠ .config r → (s.memWrite addr w).readReg r' = s.readReg r')) ∧
  (∀ s t : State, s.configured = true → step s = .next t → t.configured = false →
    s.nextTurn = .hardwareReset ∨
      (s.nextTurn = .encoder ∧ s.pending = some 0x00000005#32)) ∧
  (∀ (s : State) (i : Nat) (c : BitVec 2) (w : Word), s.busy = false → i < s.npixMax.toNat →
    (s.memWrite (BitVec.ofNat 21 (0x100000 + 16 * i + 4 * c.toNat)) w).pixWord i c = w)

/-! ### Whole-machine rules -/

/-- Rule R51: while CONFIGURED = 1 the derived registers are a function of the configuration registers alone,
and no step changes either until SOFT_RESET or hardware reset. -/
def Obligations.DerivedRegistersStayWhileConfigured : Prop :=
  (∀ s u : State, s.Inv → u.Inv → s.configured = true → u.configured = true → u.cfg = s.cfg →
    u.derived = s.derived) ∧
  (∀ s t : State, s.configured = true → step s = .next t → s.nextTurn ≠ .hardwareReset →
    ¬ (s.nextTurn = .encoder ∧ s.pending = some 0x00000005#32) →
    t.configured = true ∧ t.cfg = s.cfg ∧ t.derived = s.derived)

/-- Rule R42: OUT is append-only, and only an ENCODE_FRAME or GENERATE_LATCH that runs appends to it; after
hardware reset it is empty, and no Host read shows it. -/
def Obligations.OutputIsAppendOnly : Prop :=
  (∀ s t : State, step s = .next t → s.nextTurn ≠ .hardwareReset →
    ∃ bytes, t.out = s.out ++ bytes ∧
      (bytes ≠ [] → s.nextTurn = .encoder ∧ s.configured = true ∧
        ∃ w, s.pending = some w ∧
          (w &&& 0x0000FFCF#32 = 0x00000002#32 ∨ w = 0x00000003#32))) ∧
  (∀ s t : State, step s = .next t → s.nextTurn = .hardwareReset → t.out = []) ∧
  (∀ (s : State) (bytes : List Byte) (addr : BusAddr),
    ({ s with out := bytes } : State).memRead addr = s.memRead addr)

/-- Rule R213: no byte is emitted while the block is unconfigured. -/
def Obligations.NothingEmittedUnconfigured : Prop :=
  ∀ s t : State, s.configured = false → s.nextTurn ≠ .hardwareReset → step s = .next t →
    t.out = s.out

/-- Rule R45: NPIX_MAX never changes, and its register reads as the parameter with zeros above. -/
def Obligations.NpixMaxNeverChanges : Prop :=
  (∀ s t : State, step s = .next t → t.npixMax = s.npixMax ∧ t.readReg .npixMax = s.readReg .npixMax) ∧
  (∀ s : State, (s.readReg .npixMax).toNat = s.npixMax.toNat)

/-- The pixel memory changes by a Host write to it while idle and by hardware reset only: no command changes a
byte of it (rules R41 and R63). That a stopped Host writes nothing is the model's choice (assumption log 10). -/
def Obligations.PixelMemoryChangesByHostWritesOnly : Prop :=
  ∀ s t : State, step s = .next t → s.nextTurn ≠ .hardwareReset →
    (∀ a, t.pixByte a = s.pixByte a) ∨
    (s.nextTurn = .host ∧ s.busy = false ∧ s.host.verdict = none ∧
      ∃ (addr : BusAddr) (w : Word) (i : Nat) (c : BitVec 2),
        s.host.program[s.host.hpc]? = some (.wr addr w) ∧ i < s.npixMax.toNat ∧
        addr.toNat / 4 * 4 = pixAddr i c ∧ t.pixWord i c = w ∧
        ∀ a, a < pixAddr i c ∨ pixAddr i c + 4 ≤ a → t.pixByte a = s.pixByte a)

/-- Rule R187: a pending command is never replaced by another: a Host turn keeps it, and only the Encoder's
step and hardware reset end it. -/
def Obligations.PendingCommandIsNeverReplaced : Prop :=
  ∀ (s t : State) (w : Word), s.pending = some w → step s = .next t →
    (s.nextTurn = .host → t.pending = some w) ∧
    (s.nextTurn = .encoder → t.pending = none ∧ t.lastOp = w.extractLsb' 0 4) ∧
    (s.nextTurn = .hardwareReset → t.pending = none)

/-- A pending command reads what stood when its CMD write was accepted (rules R65 and R73, row I5): however
many Host turns come first, whatever the Host program, the command ends in the same block state, but for the
sticky BUSY_VIOLATION; the Host's own state may differ. -/
def Obligations.PendingCommandIsIsolatedFromHost : Prop :=
  ∀ (s : State) (w : Word) (k : Nat) (ts : List Turn), s.pending = some w →
    ∃ t u, runSteps 1 { s with turns := .encoder :: ts } = .next t ∧
      runSteps (k + 1) { s with turns := List.replicate k .host ++ .encoder :: ts } = .next u ∧
      t.SameBlock u ∧ u.out = t.out ∧ (∀ r : Reg, r ≠ .status → u.readReg r = t.readReg r)

/-- The end of a run (rule R252): once the program has stopped with nothing pending, no step but hardware reset
changes the observation: the verdict, the registers, PIX and OUT. That a further turn of a stopped Host does
nothing is the model's choice (assumption log 10), and so is whose turn comes where the input has run out
(assumption log 3). -/
def Obligations.EndedRunKeepsObservation : Prop :=
  ∀ s t : State, s.RunEnded → s.nextTurn ≠ .hardwareReset → step s = .next t →
    t.RunEnded ∧ t.observe = s.observe

/-! ### The Host's programs -/

/-- The effect of each primitive statement, how a program starts and stops, and that a BNE goes to a label of
its own program: a label that names no statement is an assembly error (rule R89). The model's own: a stopped
Host does nothing (assumption log 10), a statement that stops the program leaves `hpc` (assumption log 14), a
label after the last statement is one that names no statement (assumption log 7), and `loadProgram` leaves no
verdict (assumption log 4). -/
def Obligations.HostStatementEffects : Prop :=
  (∀ s : State,
    (∀ addr value, (HostStmt.wr addr value).run s =
      { s.memWrite addr value with host := { s.host with hpc := s.host.hpc + 1 } }) ∧
    (∀ addr, (HostStmt.rd addr).run s = { s with host := { s.host with hpc := s.host.hpc + 1 } }) ∧
    (∀ addr mask value, (HostStmt.expect addr mask value).run s =
      if s.memRead addr &&& mask ≠ value then
        { s with host := { s.host with verdict := some .fail } }
      else { s with host := { s.host with hpc := s.host.hpc + 1 } }) ∧
    (∀ addr mask value target, (HostStmt.bne addr mask value target).run s =
      if s.memRead addr &&& mask ≠ value then { s with host := { s.host with hpc := target } }
      else { s with host := { s.host with hpc := s.host.hpc + 1 } }) ∧
    (HostStmt.halt.run s = { s with host := { s.host with verdict := some .pass } }) ∧
    (s.host.verdict = none → s.host.program.length ≤ s.host.hpc →
      s.hostTurn = { s with host := { s.host with verdict := some .pass } }) ∧
    (∀ st, s.host.verdict = none → s.host.program[s.host.hpc]? = some st →
      s.hostTurn = st.run s) ∧
    (s.host.verdict ≠ none → s.hostTurn = s) ∧
    (∀ p, (s.loadProgram p).host = ⟨p, 0, none⟩)) ∧
  (∀ (ls : List SourceLine) (name : String) (k : Nat), (name, k) ∈ labelTable 0 ls →
    programSize ls ≤ k → ∃ e, assemble ls = .error e) ∧
  (∀ (labels : List (String × Nat)) (k a m v : Nat) (name : String), labels.lookup name = none →
    ∃ e, (SourceStmt.bne a m v name).expand labels k = .error e) ∧
  (∀ (labels : List (String × Nat)) (k a m v target : Nat) (name : String),
    labels.lookup name = some target → m < 2 ^ 32 → v < 2 ^ 32 →
    (SourceStmt.bne a m v name).expand labels k =
      .ok [.bne (BitVec.ofNat 21 a) (BitVec.ofNat 32 m) (BitVec.ofNat 32 v) target])

/-- Rule R90: the words of the command mnemonics. -/
def Obligations.CommandMnemonicWords : Prop :=
  ∀ (labels : List (String × Nat)) (k : Nat),
    (SourceStmt.command .nop).expand labels k = .ok [.wr 0x000#21 0x00000000#32] ∧
    (SourceStmt.command .configure).expand labels k = .ok [.wr 0x000#21 0x00000001#32] ∧
    (∀ (n : Nat) (pre post : Bool), n ≤ 65535 →
      (SourceStmt.command (.encodeFrame n pre post)).expand labels k =
        .ok [.wr 0x000#21 ((BitVec.ofNat 32 n <<< 16) |||
          (if pre then (if post then 0x32#32 else 0x12#32)
            else (if post then 0x22#32 else 0x2#32)))]) ∧
    (∀ (n : Nat) (pre post : Bool), 65535 < n →
      (SourceStmt.command (.encodeFrame n pre post)).expand labels k =
        .error (.countOutOfRange n)) ∧
    (SourceStmt.command .generateLatch).expand labels k = .ok [.wr 0x000#21 0x00000003#32] ∧
    (SourceStmt.command .clearError).expand labels k = .ok [.wr 0x000#21 0x00000004#32] ∧
    (SourceStmt.command .softReset).expand labels k = .ok [.wr 0x000#21 0x00000005#32]

/-- Rules R91 to R95: the expansions of the pseudo-instructions, for values that are 32-bit words, a negative
pixel value being `v mod 2^32`. -/
def Obligations.PseudoInstructionExpansions : Prop :=
  ∀ (labels : List (String × Nat)) (k : Nat),
    (∀ (r : ConfigReg) (v : Nat), v < 2 ^ 32 →
      (SourceStmt.setCfg r v).expand labels k =
        .ok [.wr (BitVec.ofNat 21 r.offset) (BitVec.ofNat 32 v)]) ∧
    (∀ (i : Nat) (v0 v1 v2 : Int), v0 < 2 ^ 32 → v1 < 2 ^ 32 → v2 < 2 ^ 32 →
      (SourceStmt.setPix i v0 v1 v2 none).expand labels k =
        .ok [.wr (BitVec.ofNat 21 (0x100000 + 16 * i)) (BitVec.ofInt 32 v0),
          .wr (BitVec.ofNat 21 (0x100000 + 16 * i + 4)) (BitVec.ofInt 32 v1),
          .wr (BitVec.ofNat 21 (0x100000 + 16 * i + 8)) (BitVec.ofInt 32 v2)]) ∧
    (∀ (i : Nat) (v0 v1 v2 v3 : Int), v0 < 2 ^ 32 → v1 < 2 ^ 32 → v2 < 2 ^ 32 → v3 < 2 ^ 32 →
      (SourceStmt.setPix i v0 v1 v2 (some v3)).expand labels k =
        .ok [.wr (BitVec.ofNat 21 (0x100000 + 16 * i)) (BitVec.ofInt 32 v0),
          .wr (BitVec.ofNat 21 (0x100000 + 16 * i + 4)) (BitVec.ofInt 32 v1),
          .wr (BitVec.ofNat 21 (0x100000 + 16 * i + 8)) (BitVec.ofInt 32 v2),
          .wr (BitVec.ofNat 21 (0x100000 + 16 * i + 12)) (BitVec.ofInt 32 v3)]) ∧
    SourceStmt.waitIdle.expand labels k = .ok [.bne 0x004#21 0x1#32 0x0#32 k] ∧
    (∀ (i : Instr) (st : HostStmt), (SourceStmt.command i).expand labels k = .ok [st] →
      (SourceStmt.run i).expand labels k = .ok [st, .bne 0x004#21 0x1#32 0x0#32 (k + 1)]) ∧
    SourceStmt.checkOk.expand labels k = .ok [.expect 0x008#21 0xFF#32 0x00#32]

/-- The model's choice (assumption log 7): a value that is no 32-bit word is an assembly error. -/
def Obligations.OutOfRangeValuesAreAssemblyErrors : Prop :=
  ∀ (labels : List (String × Nat)) (k : Nat),
    (∀ (r : ConfigReg) (v : Nat), 2 ^ 32 ≤ v →
      (SourceStmt.setCfg r v).expand labels k = .error (.valueOutOfRange v)) ∧
    (∀ a v : Nat, 2 ^ 32 ≤ v → (SourceStmt.wr a v).expand labels k = .error (.valueOutOfRange v)) ∧
    (∀ (i : Nat) (v0 v1 v2 : Int) (v3 : Option Int),
      2 ^ 32 ≤ v0 ∨ 2 ^ 32 ≤ v1 ∨ 2 ^ 32 ≤ v2 ∨ (∃ v, v3 = some v ∧ 2 ^ 32 ≤ v) →
      ∃ n, (SourceStmt.setPix i v0 v1 v2 v3).expand labels k = .error (.valueOutOfRange n))
end

