-- ==== Sys2Proof/Laws/Bits.lean ====
section
/-! SUPPORT. Bit lists: the number they stand for, packing into bytes and reading back, and the lengths of the
pieces of a frame. -/

namespace Sys2Proof.Machine

theorem foldl_bits (bits : List Bool) (acc : Nat) :
    bits.foldl (fun a b => 2 * a + b.toNat) acc = acc * 2 ^ bits.length + bitsToNat bits := by
  induction bits generalizing acc with
  | nil => simp [bitsToNat]
  | cons b bs ih =>
    simp only [List.foldl_cons, bitsToNat, List.length_cons]
    rw [ih, ih (2 * 0 + b.toNat)]
    ring

@[simp] theorem bitsToNat_nil : bitsToNat [] = 0 := rfl

theorem bitsToNat_cons (b : Bool) (bs : List Bool) :
    bitsToNat (b :: bs) = b.toNat * 2 ^ bs.length + bitsToNat bs := by
  have h := foldl_bits bs (2 * 0 + b.toNat)
  simp only [bitsToNat, List.foldl_cons] at *
  rw [h]
  ring

theorem bitsToNat_lt (bits : List Bool) : bitsToNat bits < 2 ^ bits.length := by
  induction bits with
  | nil => simp
  | cons b bs ih =>
    rw [bitsToNat_cons, List.length_cons, pow_succ]
    cases b <;> simp <;> omega

/-- The binary digits of the number a bit list stands for are its bits, last bit first. -/
theorem testBit_bitsToNat (bits : List Bool) (i : Nat) (h : i < bits.length) :
    (bitsToNat bits).testBit i = bits[bits.length - 1 - i]'(by omega) := by
  induction bits with
  | nil => simp at h
  | cons b bs ih =>
    have hlt := bitsToNat_lt bs
    rw [bitsToNat_cons]
    by_cases hi : i = bs.length
    · subst hi
      simp only [List.length_cons, Nat.add_sub_cancel, Nat.sub_self, List.getElem_cons_zero]
      rw [mul_comm, Nat.testBit_two_pow_mul_add _ hlt]
      cases b <;> simp
    · have hi' : i < bs.length := by simp at h; omega
      rw [mul_comm, Nat.testBit_two_pow_mul_add _ hlt, if_pos hi', ih hi']
      have : bs.length - i = (bs.length - 1 - i) + 1 := by omega
      simp only [List.length_cons, Nat.add_sub_cancel, this, List.getElem_cons_succ]

/-- A byte made of eight bits has those bits, first bit most significant (rule R149). -/
theorem byteBits_ofBits (b0 b1 b2 b3 b4 b5 b6 b7 : Bool) :
    byteBits (BitVec.ofNat 8 (bitsToNat [b0, b1, b2, b3, b4, b5, b6, b7])) =
      [b0, b1, b2, b3, b4, b5, b6, b7] := by
  revert b0 b1 b2 b3 b4 b5 b6 b7
  decide

@[simp] theorem byteBits_length (b : Byte) : (byteBits b).length = 8 := rfl

theorem bitsToNat_byteBits (b : Byte) : BitVec.ofNat 8 (bitsToNat (byteBits b)) = b := by
  revert b
  decide

@[simp] theorem lineBits_nil : lineBits [] = [] := rfl

@[simp] theorem lineBits_cons (b : Byte) (bs : List Byte) :
    lineBits (b :: bs) = byteBits b ++ lineBits bs := by
  simp [lineBits]

theorem lineBits_append (xs ys : List Byte) : lineBits (xs ++ ys) = lineBits xs ++ lineBits ys := by
  simp [lineBits]

@[simp] theorem lineBits_length (bytes : List Byte) : (lineBits bytes).length = 8 * bytes.length := by
  induction bytes with
  | nil => rfl
  | cons b bs ih => simp [ih]; ring

/-- The line carries the bits that were packed, in their order (rules R68 and R149), and a list of whole bytes
packs without a remainder. -/
theorem lineBits_pack (k : Nat) (bits : List Bool) (h : bits.length = 8 * k) :
    lineBits (pack bits) = bits ∧ (pack bits).length = k := by
  induction k generalizing bits with
  | zero =>
    have : bits = [] := List.eq_nil_of_length_eq_zero (by omega)
    subst this
    exact ⟨rfl, rfl⟩
  | succ k ih =>
    match bits, h with
    | b0 :: b1 :: b2 :: b3 :: b4 :: b5 :: b6 :: b7 :: rest, h =>
      obtain ⟨h1, h2⟩ := ih rest (by simp at h; omega)
      simp only [pack, lineBits_cons, byteBits_ofBits, h1, List.length_cons, h2]
      exact ⟨rfl, trivial⟩

theorem pack_append (k : Nat) (xs ys : List Bool) (h : xs.length = 8 * k) :
    pack (xs ++ ys) = pack xs ++ pack ys := by
  induction k generalizing xs with
  | zero =>
    have : xs = [] := List.eq_nil_of_length_eq_zero (by omega)
    subst this
    rfl
  | succ k ih =>
    match xs, h with
    | b0 :: b1 :: b2 :: b3 :: b4 :: b5 :: b6 :: b7 :: rest, h =>
      have := ih rest (by simp at h; omega)
      simp only [List.cons_append, pack, this]

@[simp] theorem patternBits_length (L : Nat) (p : Word) : (patternBits L p).length = L := by
  simp [patternBits]

@[simp] theorem slotBits_length (s : State) (v : Bool) : (s.slotBits v).length = s.cfg.patLen := by
  simp [State.slotBits]

/-- One channel value is 8 slots of L bits (rule R151). -/
@[simp] theorem channelBits_length (s : State) (b : Byte) :
    (s.channelBits b).length = 8 * s.cfg.patLen := by
  simp [State.channelBits, byteBits]
  ring

@[simp] theorem order_length (c : ConfigRegs) : c.order.length = c.chanCount := by
  simp [ConfigRegs.order]

/-- A frame of N pixels has N · C channels (rules R141 and R142). -/
@[simp] theorem walk_length (c : ConfigRegs) (n : Nat) : (c.walk n).length = n * c.chanCount := by
  simp [ConfigRegs.walk, List.length_flatMap]

/-- A list of pieces of one length: where piece number m lies. -/
theorem flatMap_piece {α β : Type} (f : α → List β) (size : Nat) (hf : ∀ a, (f a).length = size)
    (xs : List α) (m : Nat) (hm : m < xs.length) :
    ((xs.flatMap f).drop (m * size)).take size = f xs[m] := by
  induction xs generalizing m with
  | nil => simp at hm
  | cons x xs ih =>
    cases m with
    | zero => simp [hf]
    | succ m =>
      have hm' : m < xs.length := by simpa using hm
      have : (m + 1) * size = (f x).length + m * size := by rw [hf]; ring
      simp only [List.flatMap_cons, this, List.getElem_cons_succ]
      rw [List.drop_append, List.drop_eq_nil_of_le (by omega)]
      simpa using ih m hm'

theorem flatMap_length_of {α β : Type} (f : α → List β) (size : Nat)
    (hf : ∀ a, (f a).length = size) (xs : List α) :
    (xs.flatMap f).length = xs.length * size := by
  induction xs with
  | nil => simp
  | cons x xs ih => simp [ih, hf]; ring

/-- The channel at place `i·C + k` of the walk is pixel i, tuple index `ORD_k` (rules R141 and R142). -/
theorem walk_getElem? (c : ConfigRegs) (n i k : Nat) (hi : i < n) (hk : k < c.chanCount) :
    (c.walk n)[i * c.chanCount + k]? = some (i, c.ord k) := by
  have hp := flatMap_piece (fun i => c.order.map fun ch => (i, ch)) c.chanCount (by simp)
    (List.range n) i (by simpa using hi)
  have : ((c.walk n).drop (i * c.chanCount)).take c.chanCount =
      c.order.map fun ch => (i, ch) := by simpa [ConfigRegs.walk] using hp
  have h2 := congrArg (fun l => l[k]?) this
  simp only [List.getElem?_take, hk, if_true, List.getElem?_drop] at h2
  rw [h2]
  simp [ConfigRegs.order, hk]

/-- The members of the walk: pixels below N, tuple indices of the order. -/
theorem mem_walk {c : ConfigRegs} {n : Nat} {p : Nat × BitVec 2} :
    p ∈ c.walk n ↔ p.1 < n ∧ ∃ k, k < c.chanCount ∧ p.2 = c.ord k := by
  obtain ⟨i, ch⟩ := p
  simp only [ConfigRegs.walk, ConfigRegs.order, List.mem_flatMap, List.mem_range, List.mem_map,
    Prod.mk.injEq]
  constructor
  · rintro ⟨j, hj, c2, ⟨k, hk, rfl⟩, rfl, rfl⟩
    exact ⟨hj, k, hk, rfl⟩
  · rintro ⟨hi, k, hk, rfl⟩
    exact ⟨i, hi, _, ⟨k, hk, rfl⟩, rfl, rfl⟩

end Sys2Proof.Machine
end

