-- ==== Sys2Proof/Laws/Memory.lean ====
section
/-! SUPPORT. The laws of pixel memory: what a write changes, what it leaves, and that it keeps the
canonical form. -/

namespace Sys2Proof.Machine

theorem Memory.find_writeByte (m : Memory) (a a' : Nat) (b : Byte) :
    (m.writeByte a b).find a' = if a' = a then some b else m.find a' := by
  induction m with
  | nil => simp [Memory.writeByte, Memory.find]
  | cons x rest ih =>
    obtain ⟨h, v⟩ := x
    unfold Memory.writeByte
    split
    · by_cases h1 : a' = a <;> simp [Memory.find, h1]
    · split
      · next h2 => subst h2; by_cases h1 : a' = a <;> simp [Memory.find, h1]
      · next h2 =>
        simp only [Memory.find, ih]
        by_cases h1 : a' = a
        · subst h1; simp [h2]
        · simp [h1]

theorem Memory.mem_writeByte {m : Memory} {a : Nat} {b : Byte} {x : Host.Cell}
    (hx : x ∈ m.writeByte a b) : x = (a, b) ∨ x ∈ m := by
  induction m with
  | nil => simpa [Memory.writeByte] using hx
  | cons y rest ih =>
    unfold Memory.writeByte at hx
    split at hx
    · simpa using hx
    · split at hx
      · rcases List.mem_cons.mp hx with h | h
        · exact .inl h
        · exact .inr (List.mem_cons_of_mem _ h)
      · rcases List.mem_cons.mp hx with h | h
        · exact .inr (h ▸ List.mem_cons_self)
        · exact (ih h).imp_right (List.mem_cons_of_mem _)

/-- A byte write keeps the canonical form. -/
theorem Memory.writeByte_wf {m : Memory} (hm : m.wf) (a : Nat) (b : Byte) :
    (m.writeByte a b).wf := by
  induction m with
  | nil => simp [Memory.wf, Memory.writeByte]
  | cons y rest ih =>
    obtain ⟨h, v⟩ := y
    have hcons := List.pairwise_cons.mp hm
    unfold Memory.writeByte
    split
    · next h1 =>
      refine List.pairwise_cons.mpr ⟨fun z hz => ?_, hm⟩
      rcases List.mem_cons.mp hz with rfl | hz
      · exact h1
      · exact h1.trans (hcons.1 z hz)
    · split
      · next h1 => subst h1; exact List.pairwise_cons.mpr ⟨hcons.1, hcons.2⟩
      · refine List.pairwise_cons.mpr ⟨fun z hz => ?_, ih hcons.2⟩
        rcases Memory.mem_writeByte hz with rfl | hz
        · show h < a
          omega
        · exact hcons.1 z hz

/-- A word write keeps the canonical form. -/
theorem Memory.writeWord_wf {m : Memory} (hm : m.wf) (a : Nat) (w : Word) :
    (m.writeWord a w).wf :=
  Memory.writeByte_wf (Memory.writeByte_wf (Memory.writeByte_wf (Memory.writeByte_wf hm _ _) _ _) _ _)
    _ _

/-- A word write lists nothing new but the word's four addresses. -/
theorem Memory.mem_writeWord {m : Memory} {a : Nat} {w : Word} {x : Host.Cell}
    (hx : x ∈ m.writeWord a w) : (a ≤ x.1 ∧ x.1 < a + 4) ∨ x ∈ m := by
  rcases Memory.mem_writeByte hx with rfl | hx
  · left; simp
  rcases Memory.mem_writeByte hx with rfl | hx
  · left; simp
  rcases Memory.mem_writeByte hx with rfl | hx
  · left; simp
  rcases Memory.mem_writeByte hx with rfl | hx
  · left; simp
  · exact .inr hx

/-- What a word write makes an address hold. -/
theorem Memory.find_writeWord (m : Memory) (a a' : Nat) (w : Word) :
    (m.writeWord a w).find a' =
      if a' = a + 3 then some (w.extractLsb' 24 8)
      else if a' = a + 2 then some (w.extractLsb' 16 8)
      else if a' = a + 1 then some (w.extractLsb' 8 8)
      else if a' = a then some (w.extractLsb' 0 8)
      else m.find a' := by
  simp only [Memory.writeWord, Memory.find_writeByte]

/-- A word of pixel memory reads back as it was written. -/
theorem pixWordAt_write (s : State) (a : Nat) (w : Word) :
    ({ s with pix := s.pix.writeWord a w } : State).pixWordAt a = w := by
  have e : w.extractLsb' 24 8 ++ (w.extractLsb' 16 8 ++ (w.extractLsb' 8 8 ++ w.extractLsb' 0 8)) = w := by
    ext i hi
    simp only [BitVec.getElem_append, BitVec.getElem_extractLsb']
    split_ifs <;> rw [BitVec.getLsbD_eq_getElem (by omega)] <;> congr 1 <;> omega
  simp only [State.pixWordAt, State.pixByte, Memory.find_writeWord]
  simpa using e

/-- A byte outside the word written reads as before. -/
theorem pixByte_write_other (s : State) (a a' : Nat) (w : Word) (h : a' < a ∨ a + 4 ≤ a') :
    ({ s with pix := s.pix.writeWord a w } : State).pixByte a' = s.pixByte a' := by
  simp only [State.pixByte, Memory.find_writeWord]
  rw [if_neg (by omega), if_neg (by omega), if_neg (by omega), if_neg (by omega)]

/-- A word that does not meet the word written reads as before. -/
theorem pixWordAt_write_other (s : State) (a a' : Nat) (w : Word) (h : a' + 4 ≤ a ∨ a + 4 ≤ a') :
    ({ s with pix := s.pix.writeWord a w } : State).pixWordAt a' = s.pixWordAt a' := by
  simp only [State.pixWordAt]
  rw [pixByte_write_other s a a' w (by omega), pixByte_write_other s a (a' + 1) w (by omega),
    pixByte_write_other s a (a' + 2) w (by omega), pixByte_write_other s a (a' + 3) w (by omega)]

/-- Two pixel words share no byte unless they are the same word. -/
theorem pixAddr_disjoint {i i' : Nat} {c c' : BitVec 2} (h : ¬ (i' = i ∧ c' = c)) :
    pixAddr i' c' + 4 ≤ pixAddr i c ∨ pixAddr i c + 4 ≤ pixAddr i' c' := by
  have hc := c.isLt
  have hc' := c'.isLt
  have : i' ≠ i ∨ c'.toNat ≠ c.toNat := by
    by_contra hcon
    simp only [not_or, not_not] at hcon
    exact h ⟨hcon.1, BitVec.eq_of_toNat_eq hcon.2⟩
  simp only [pixAddr]
  omega

/-- A pixel write, read back: `PIX[i][c] <- w`. -/
theorem pixWord_storePix (s : State) (i i' : Nat) (c c' : BitVec 2) (w : Word) :
    (s.storePix i c w).pixWord i' c' = if i' = i ∧ c' = c then w else s.pixWord i' c' := by
  unfold State.storePix State.pixWord
  split
  · next h => rw [h.1, h.2]; exact pixWordAt_write s _ w
  · next h => exact pixWordAt_write_other s _ _ w (pixAddr_disjoint h)

end Sys2Proof.Machine
end

