-- ==== Sys2Proof/Laws/Bus.lean ====
section
/-! SUPPORT. The bus port: where an address goes, and everything a Host write, a Host statement and a Host
turn can do. -/

namespace Sys2Proof.Machine

theorem wordAddr_eq (addr : BusAddr) : wordAddr addr = addr.toNat / 4 * 4 := by
  have h := addr.isLt
  simp only [wordAddr, BitVec.extractLsb'_toNat, Nat.shiftRight_eq_div_pow]
  omega

/-- No register lies at an offset that is not in the map's range. -/
theorem Reg.offset_lt (r : Reg) : r.offset < 0x78 := by
  cases r with
  | config r => cases r <;> decide
  | _ => decide

theorem Reg.offset_injective {r r' : Reg} (h : r.offset = r'.offset) : r = r' := by
  cases r <;> cases r' <;> first
    | rfl
    | (exfalso; revert h; decide)
    | (rename_i x; cases x <;> exact absurd h (by decide))
    | (rename_i x y; cases x <;> cases y <;> first | rfl | exact absurd h (by decide))

theorem Reg.mem_all' (r : Reg) : Reg.all.find? (fun r' => r'.offset == r.offset) = some r := by
  cases r with
  | config r => cases r <;> decide
  | _ => decide

/-- An address at a register's offset names the register. -/
theorem busTarget_reg {npix : Nat} {addr : BusAddr} {r : Reg} (h : wordAddr addr = r.offset) :
    busTarget npix addr = .reg r := by
  simp only [busTarget, h, Reg.mem_all']

theorem find_offset_none {a : Nat} (h : ∀ r : Reg, r.offset ≠ a) :
    Reg.all.find? (fun r => r.offset == a) = none := by
  rw [List.find?_eq_none]
  intro r _
  simpa using h r

/-- An address of pixel memory names its pixel word. -/
theorem busTarget_pix {npix : Nat} {addr : BusAddr} {i : Nat} {c : BitVec 2} (hi : i < npix)
    (h : wordAddr addr = pixAddr i c) : busTarget npix addr = .pix i c := by
  have hc := c.isLt
  have hnone := find_offset_none (a := pixAddr i c) fun r => by
    have := r.offset_lt
    simp only [pixAddr, Config.pixBase]
    omega
  simp only [busTarget, h, hnone]
  have h1 : (pixAddr i c - Config.pixBase) / 16 = i := by simp only [pixAddr]; omega
  rw [if_pos ⟨by simp only [pixAddr]; omega, by omega⟩, h1]
  congr 1
  apply BitVec.eq_of_toNat_eq
  simp only [pixAddr, BitVec.toNat_ofNat]
  omega

/-- Every other address is undefined. -/
theorem busTarget_undefined {npix : Nat} {addr : BusAddr} (hreg : ∀ r : Reg, r.offset ≠ wordAddr addr)
    (hpix : wordAddr addr < Config.pixBase ∨ Config.pixBase + 16 * npix ≤ wordAddr addr) :
    busTarget npix addr = .undefined := by
  simp only [busTarget, find_offset_none hreg]
  rw [if_neg]
  omega

/-- What a bus address can name, with the address it then has. -/
theorem busTarget_cases (npix : Nat) (addr : BusAddr) :
    (∃ r, busTarget npix addr = .reg r ∧ wordAddr addr = r.offset) ∨
    (∃ i c, busTarget npix addr = .pix i c ∧ i < npix ∧ wordAddr addr = pixAddr i c) ∨
    busTarget npix addr = .undefined := by
  by_cases hreg : ∃ r : Reg, wordAddr addr = r.offset
  · obtain ⟨r, hr⟩ := hreg
    exact .inl ⟨r, busTarget_reg hr, hr⟩
  · by_cases hp : wordAddr addr < Config.pixBase ∨ Config.pixBase + 16 * npix ≤ wordAddr addr
    · exact .inr (.inr (busTarget_undefined (fun r h => hreg ⟨r, h.symm⟩) hp))
    · have h4 := wordAddr_eq addr
      have ha : wordAddr addr = pixAddr ((wordAddr addr - Config.pixBase) / 16)
          (BitVec.ofNat 2 ((wordAddr addr - Config.pixBase) / 4)) := by
        simp only [pixAddr, Config.pixBase, BitVec.toNat_ofNat] at *
        omega
      exact .inr (.inl ⟨_, _, busTarget_pix (by omega) ha, by omega, ha⟩)

/-- Everything a Host write can do (rule R63). -/
theorem memWrite_cases (s : State) (addr : BusAddr) (w : Word) :
    (s.busy = true ∧ s.memWrite addr w = { s with busyViolation := true }) ∨
    (s.busy = false ∧ wordAddr addr = 0 ∧ s.memWrite addr w = { s with pending := some w }) ∨
    (s.busy = false ∧ s.configured = true ∧ (∃ r : ConfigReg, wordAddr addr = r.offset) ∧
      s.memWrite addr w = { s with lockViolation := true }) ∨
    (s.busy = false ∧ s.configured = false ∧ ∃ r : ConfigReg, wordAddr addr = r.offset ∧
      s.memWrite addr w = { s with cfg := s.cfg.set r w }) ∨
    (s.busy = false ∧ ∃ i c, i < s.npixMax.toNat ∧ wordAddr addr = pixAddr i c ∧
      s.memWrite addr w = s.storePix i c w) ∨
    (s.busy = false ∧ s.memWrite addr w = s) := by
  unfold State.memWrite
  by_cases hb : s.busy = true
  · simp [hb]
  · simp only [hb, Bool.not_eq_true] at *
    rcases busTarget_cases s.npixMax.toNat addr with ⟨r, ht, ha⟩ | ⟨i, c, ht, hi, ha⟩ | ht
    · cases r with
      | cmd => simp [ht, ha, Reg.offset]
      | config r =>
        by_cases hc : s.configured = true
        · right; right; left
          refine ⟨trivial, hc, ⟨r, ha⟩, ?_⟩
          simp [ht, State.writeConfig, hc]
        · right; right; right; left
          refine ⟨trivial, by simpa using hc, r, ha, ?_⟩
          simp [ht, State.writeConfig, hc]
      | _ => simp [ht]
    · right; right; right; right; left
      exact ⟨trivial, i, c, hi, ha, by simp [ht]⟩
    · simp [ht]

/-- A write while a command is pending sets the sticky flag and does nothing else (rule R65). -/
theorem memWrite_busy {s : State} (h : s.busy = true) (addr : BusAddr) (w : Word) :
    s.memWrite addr w = { s with busyViolation := true } := by
  simp [State.memWrite, h]

/-- Everything one statement can do: a write, or a change of the Host's own state (rule R89). -/
theorem HostStmt.run_cases (st : HostStmt) (s : State) :
    (∃ addr w, st = .wr addr w ∧
      st.run s = { s.memWrite addr w with host := { s.host with hpc := s.host.hpc + 1 } }) ∨
    (∃ pc, st.run s = { s with host := { s.host with hpc := pc } }) ∨
    (∃ v, st.run s = { s with host := { s.host with verdict := some v } }) := by
  cases st with
  | wr addr w =>
    left
    refine ⟨addr, w, rfl, ?_⟩
    have : (s.memWrite addr w).host = s.host := by
      rcases memWrite_cases s addr w with h | h | h | h | h | h
      · rw [h.2]
      · rw [h.2.2]
      · rw [h.2.2.2]
      · obtain ⟨-, -, r, -, h⟩ := h; rw [h]
      · obtain ⟨-, i, c, -, -, h⟩ := h; rw [h]; rfl
      · rw [h.2]
    simp [HostStmt.run, State.setHpc, this]
  | rd addr => exact .inr (.inl ⟨_, rfl⟩)
  | expect addr m v =>
    right
    cases h : s.readDiffers addr m v
    · exact .inl ⟨s.host.hpc + 1, by simp [HostStmt.run, h, State.setHpc]⟩
    · exact .inr ⟨.fail, by simp [HostStmt.run, h, State.stopHost]⟩
  | bne addr m v t =>
    right; left
    cases h : s.readDiffers addr m v
    · exact ⟨s.host.hpc + 1, by simp [HostStmt.run, h, State.setHpc]⟩
    · exact ⟨t, by simp [HostStmt.run, h, State.setHpc]⟩
  | halt => exact .inr (.inr ⟨_, rfl⟩)

/-- Everything one Host turn can do: nothing, a write, or a change of the Host's own state (rule R89). -/
theorem hostTurn_cases (s : State) :
    (∃ h, s.hostTurn = { s with host := h }) ∨
    (∃ addr w h, s.host.verdict = none ∧ s.hostTurn = { s.memWrite addr w with host := h }) := by
  unfold State.hostTurn
  split
  · exact .inl ⟨s.host, rfl⟩
  · next hv =>
    split
    · exact .inl ⟨_, rfl⟩
    · next st _ =>
      rcases HostStmt.run_cases st s with ⟨a, w, -, h⟩ | ⟨pc, h⟩ | ⟨v, h⟩
      · exact .inr ⟨a, w, _, hv, h⟩
      · exact .inl ⟨_, h⟩
      · exact .inl ⟨_, h⟩

end Sys2Proof.Machine
end

