-- ==== Sys2Proof/Laws/Derive.lean ====
section
/-! SUPPORT. What it takes for the derivation to pass its checks, and what it then answers. -/

namespace Sys2Proof.Machine

/-- The field checks pass exactly when every field is legal (rule R110, rows 1 to 6). -/
theorem fieldCheck_none {c : ConfigRegs} (h : c.fieldCheck = none) :
    0 < c.bitRateHz.toNat ∧ 1 ≤ c.patLen ∧ c.patLen ≤ 32 ∧ (c.chanCount = 3 ∨ c.chanCount = 4) ∧
      (c.order.map BitVec.toNat).isPerm (List.range c.chanCount) = true ∧
      256 ≤ c.latchSf.toNat ∧ c.latchCount ≤ 4294967295 := by
  unfold ConfigRegs.fieldCheck at h
  split at h; · simp at h
  split at h; · simp at h
  split at h; · simp at h
  split at h; · simp at h
  split at h; · simp at h
  split at h; · simp at h
  simp only [Config.patternMaxBits, Config.latchSfOne, Config.wordMax, Bool.not_eq_false] at *
  refine ⟨by omega, by omega, by omega, by tauto, by tauto, by omega, by omega⟩

/-- A chain of four checks answers none exactly when each passes. -/
theorem firstFailure_none {α : Type} {p q r t : Prop} [Decidable p] [Decidable q] [Decidable r]
    [Decidable t] {a b c d : α} :
    (if p then some a else if q then some b else if r then some c else if t then some d
      else none) = none ↔ ¬ p ∧ ¬ q ∧ ¬ r ∧ ¬ t := by
  split_ifs <;> simp_all

/-- The bound checks of a value pass exactly when both times lie in their windows (rules R106 and R107). -/
theorem boundCheck_none_iff {c : ConfigRegs} {v : Bool} :
    c.boundCheck v = none ↔
      ((c.highMin v * c.bitRateHz.toNat : Nat) : Int) ≤ 1000000000 * (c.highBitsOf v : Int) ∧
      1000000000 * (c.highBitsOf v : Int) ≤ ((c.highMax v * c.bitRateHz.toNat : Nat) : Int) ∧
      ((c.tldMin.toNat * c.bitRateHz.toNat : Nat) : Int) ≤ 1000000000 * c.lowBitsOf v ∧
      1000000000 * c.lowBitsOf v ≤ ((c.tldMax.toNat * c.bitRateHz.toNat : Nat) : Int) := by
  have hD : ((Config.nsPerSecond : Nat) : Int) = 1000000000 := rfl
  simp only [ConfigRegs.boundCheck]
  rw [firstFailure_none, hD]
  simp only [not_lt]

/-- A derivation that succeeds has passed every check, and answers the counts, patterns and latch count of the
configuration (rule R112). -/
theorem derive_ok {c : ConfigRegs} {d : Derivation} (h : c.derive = .ok d) :
    c.fieldCheck = none ∧ c.boundCheck false = none ∧ c.boundCheck true = none ∧
      c.highBitsOf false ≠ c.highBitsOf true ∧
      d = { h0 := c.highBitsOf false, h1 := c.highBitsOf true, l0 := c.lowBitsOf false,
            l1 := c.lowBitsOf true, pat0 := c.patternOf false, pat1 := c.patternOf true,
            latch := c.latchCount } := by
  unfold ConfigRegs.derive at h
  cases hf : c.fieldCheck with
  | some e => simp [hf] at h
  | none =>
    cases h0 : c.boundCheck false with
    | some f => simp [hf, h0] at h
    | none =>
      cases h1 : c.boundCheck true with
      | some f => simp [hf, h0, h1] at h
      | none =>
        by_cases he : c.highBitsOf false = c.highBitsOf true
        · simp [hf, h0, h1, he] at h
        · simp only [hf, h0, h1, he, if_false] at h
          exact ⟨rfl, rfl, rfl, he, (Except.ok.inj h).symm⟩

/-- The low count of a value that passes its checks is no less than 0 (rule R113). -/
theorem lowBits_nonneg {c : ConfigRegs} {v : Bool} (h : c.boundCheck v = none) :
    0 ≤ c.lowBitsOf v := by
  have := (boundCheck_none_iff.mp h).2.2.1
  omega

/-- A pattern that passes its checks has L bits. -/
theorem patternOf_length {c : ConfigRegs} {v : Bool} (h : c.boundCheck v = none) :
    (c.patternOf v).length = c.patLen := by
  have := lowBits_nonneg h
  simp only [ConfigRegs.patternOf, List.length_append, List.length_replicate]
  simp only [ConfigRegs.lowBitsOf] at *
  omega

end Sys2Proof.Machine
end

