-- ==== Sys2Proof/Laws/Exec.lean ====
section
/-! SUPPORT. Everything a command, an Encoder turn and a step can do, each said once; the provers cite these
instead of unfolding the machine. -/

namespace Sys2Proof.Machine

/-- Everything CONFIGURE can do (rules R120, R121 and R208). -/
theorem execConfigure_cases (s : State) :
    (s.configured = true ∧ execConfigure s = .next (s.finish .alreadyConfigured 0x1#4 [])) ∨
    (∃ f, s.configured = false ∧ s.cfg.derive = .error f ∧
      execConfigure s = .next (s.raiseConfigurationError f)) ∨
    (∃ d, s.configured = false ∧ s.cfg.derive = .ok d ∧
      execConfigure s = .next (s.installConfiguration d)) := by
  unfold execConfigure
  cases hc : s.configured
  · cases hd : s.cfg.derive with
    | error f => exact .inr (.inl ⟨f, rfl, rfl, rfl⟩)
    | ok d => exact .inr (.inr ⟨d, rfl, rfl, rfl⟩)
  · exact .inl ⟨rfl, rfl⟩

/-- Everything ENCODE_FRAME can do (rules R146, R148, R206 and R207). -/
theorem execEncodeFrame_cases (n : Nat) (pre post : Bool) (s : State) :
    (s.configured = false ∧
      execEncodeFrame n pre post s = .next (s.finish .notConfigured 0x2#4 [])) ∨
    (s.configured = true ∧ s.npixMax.toNat < n ∧
      execEncodeFrame n pre post s = .next (s.finish .countError 0x2#4 [])) ∨
    (∃ p, s.configured = true ∧ n ≤ s.npixMax.toNat ∧ s.firstIllegal n = some p ∧
      execEncodeFrame n pre post s = .next (s.raiseValueError p.1 p.2)) ∨
    (s.configured = true ∧ n ≤ s.npixMax.toNat ∧ s.firstIllegal n = none ∧
      execEncodeFrame n pre post s = .next (s.finish .ok 0x2#4 (s.frameOutput n pre post))) := by
  unfold execEncodeFrame
  cases hc : s.configured
  · exact .inl ⟨rfl, rfl⟩
  · by_cases hn : s.npixMax.toNat < n
    · right; left
      exact ⟨rfl, hn, by simp [hn, State.raiseCommandError]⟩
    · right; right
      simp only [hn, Bool.true_eq_false, if_false]
      cases hf : s.firstIllegal n with
      | some p => exact .inl ⟨p, trivial, by omega, rfl, rfl⟩
      | none => exact .inr ⟨trivial, by omega, rfl, rfl⟩

/-- Everything GENERATE_LATCH can do (rules R171 and R206). -/
theorem execGenerateLatch_cases (s : State) :
    (s.configured = false ∧ execGenerateLatch s = .next (s.finish .notConfigured 0x3#4 [])) ∨
    (s.configured = true ∧ execGenerateLatch s = .next (s.finish .ok 0x3#4 s.latchFill)) := by
  unfold execGenerateLatch
  cases s.configured
  · exact .inl ⟨rfl, rfl⟩
  · exact .inr ⟨rfl, rfl⟩

/-- The bytes a command appends are none unless it is a configured ENCODE_FRAME or GENERATE_LATCH; every command
answers a next state with nothing pending, its OP in LAST_OP, and the memory, the Host, the parameter and the input
of turns as they were. -/
theorem exec_answers (i : Instr) (s : State) :
    ∃ t bytes, exec i s = .next t ∧ t.pending = none ∧ t.lastOp = i.op ∧ t.pix = s.pix ∧
      t.pixDraw = s.pixDraw ∧ t.npixMax = s.npixMax ∧ t.host = s.host ∧ t.turns = s.turns ∧
      t.out = s.out ++ bytes ∧ t.outLen = BitVec.ofNat 32 bytes.length ∧
      (bytes ≠ [] → s.configured = true ∧
        (i = .generateLatch ∨ ∃ n pre post, i = .encodeFrame n pre post)) := by
  cases i with
  | nop => exact ⟨_, [], rfl, rfl, rfl, rfl, rfl, rfl, rfl, rfl, rfl, rfl, by simp⟩
  | clearError => exact ⟨_, [], rfl, rfl, rfl, rfl, rfl, rfl, rfl, rfl, rfl, rfl, by simp⟩
  | softReset => exact ⟨_, [], rfl, rfl, rfl, rfl, rfl, rfl, rfl, rfl, rfl, rfl, by simp⟩
  | configure =>
    rcases execConfigure_cases s with ⟨-, h⟩ | ⟨f, -, -, h⟩ | ⟨d, -, -, h⟩ <;>
      exact ⟨_, [], h, rfl, rfl, rfl, rfl, rfl, rfl, rfl, rfl, rfl, by simp⟩
  | encodeFrame n pre post =>
    rcases execEncodeFrame_cases n pre post s with ⟨-, h⟩ | ⟨-, -, h⟩ | ⟨p, -, -, -, h⟩ |
        ⟨hc, -, -, h⟩
    · exact ⟨_, [], h, rfl, rfl, rfl, rfl, rfl, rfl, rfl, rfl, rfl, by simp⟩
    · exact ⟨_, [], h, rfl, rfl, rfl, rfl, rfl, rfl, rfl, rfl, rfl, by simp⟩
    · exact ⟨_, [], h, rfl, rfl, rfl, rfl, rfl, rfl, rfl, rfl, rfl, by simp⟩
    · exact ⟨_, _, h, rfl, rfl, rfl, rfl, rfl, rfl, rfl, rfl, rfl, fun _ =>
        ⟨hc, .inr ⟨n, pre, post, rfl⟩⟩⟩
  | generateLatch =>
    rcases execGenerateLatch_cases s with ⟨-, h⟩ | ⟨hc, h⟩
    · exact ⟨_, [], h, rfl, rfl, rfl, rfl, rfl, rfl, rfl, rfl, rfl, by simp⟩
    · exact ⟨_, _, h, rfl, rfl, rfl, rfl, rfl, rfl, rfl, rfl, rfl, fun _ => ⟨hc, .inl rfl⟩⟩

/-- An Encoder turn: nothing pending, a command, or an illegal word (rules R43, R80 and R85). -/
theorem encoderTurn_cases (s : State) :
    (s.pending = none ∧ s.encoderTurn = .next s) ∨
    (∃ w i, s.pending = some w ∧ decode w = .ok i ∧ s.encoderTurn = exec i s) ∨
    (∃ w op, s.pending = some w ∧ decode w = .error (.illegal op) ∧
      s.encoderTurn = .next (s.finish .illegalCmd op [])) := by
  unfold State.encoderTurn
  cases hp : s.pending with
  | none => exact .inl ⟨rfl, rfl⟩
  | some w =>
    right
    cases hd : decode w with
    | ok i => exact .inl ⟨w, i, rfl, hd, by simp [runWord, hd]⟩
    | error e =>
      obtain ⟨op⟩ := e
      exact .inr ⟨w, op, rfl, hd, by simp [runWord, hd, execIllegal]⟩

/-- Everything a step can do: the three turns (rule R70). -/
theorem step_cases (s : State) :
    (s.nextTurn = .host ∧ step s = .next s.popTurn.hostTurn) ∨
    (s.nextTurn = .encoder ∧ step s = s.popTurn.encoderTurn) ∨
    (s.nextTurn = .hardwareReset ∧ step s = .next s.popTurn.hardwareReset) := by
  unfold step
  cases h : s.nextTurn
  · exact .inl ⟨rfl, rfl⟩
  · exact .inr (.inl ⟨rfl, rfl⟩)
  · exact .inr (.inr ⟨rfl, rfl⟩)

end Sys2Proof.Machine
end

