-- ==== Sys2Proof/Laws/Words.lean ====
section
/-! SUPPORT. The command word of ENCODE_FRAME as a number, and its fields as arithmetic on it. -/

namespace Sys2Proof

/-- The word of ENCODE_FRAME as a number (rules R81 and R90). -/
theorem encodeFrame_toNat (n : Nat) (pre post : Bool) :
    (encode (.encodeFrame n pre post)).toNat =
      n % 65536 * 65536 + post.toNat * 32 + pre.toNat * 16 + 2 := by
  have h : (encode (.encodeFrame n pre post)).toNat =
      (n % 2 ^ 16) <<< 16 ||| (0 <<< 6 ||| (post.toNat <<< 5 ||| (pre.toNat <<< 4 ||| 2))) := by
    simp only [encode, BitVec.toNat_append, BitVec.toNat_ofNat, BitVec.toNat_ofBool]
  rw [h]
  have hlow : (0 <<< 6 ||| (post.toNat <<< 5 ||| (pre.toNat <<< 4 ||| 2))) =
      post.toNat * 32 + pre.toNat * 16 + 2 := by cases post <;> cases pre <;> rfl
  have hlt : post.toNat * 32 + pre.toNat * 16 + 2 < 2 ^ 16 := by cases post <;> cases pre <;> decide
  rw [hlow, Nat.shiftLeft_eq, mul_comm, ← Nat.two_pow_add_eq_or_of_lt hlt]
  omega

theorem opField_toNat (w : Word) : (opField w).toNat = w.toNat % 16 := by
  simp [opField, BitVec.extractLsb'_toNat]

theorem nField_eq (w : Word) : nField w = w.toNat / 65536 := by
  have h := w.isLt
  simp only [nField, BitVec.extractLsb'_toNat, Nat.shiftRight_eq_div_pow]
  omega

theorem preField_eq (w : Word) : preField w = decide (w.toNat / 16 % 2 = 1) := by
  simp [preField, BitVec.getLsbD, Nat.testBit_eq_decide_div_mod_eq]

theorem postField_eq (w : Word) : postField w = decide (w.toNat / 32 % 2 = 1) := by
  simp [postField, BitVec.getLsbD, Nat.testBit_eq_decide_div_mod_eq]

/-- The mask of ENCODE_FRAME keeps OP and the reserved bits (rule R83). -/
theorem and_encodeFrameMask_toNat (w : Word) :
    (w &&& encodeFrameMask).toNat = w.toNat / 64 % 1024 * 64 + w.toNat % 16 := by
  have h1 : (w &&& encodeFrameMask).toNat = w.toNat &&& 65487 := by
    simp [encodeFrameMask, BitVec.toNat_and]
  have hd : (w.toNat &&& 65487) / 2 ^ 6 = w.toNat / 64 % 1024 := by
    rw [Nat.and_div_two_pow, show 65487 / 2 ^ 6 = 2 ^ 10 - 1 by norm_num,
      Nat.and_two_pow_sub_one_eq_mod]
  have hm : (w.toNat &&& 65487) % 2 ^ 6 = w.toNat % 16 := by
    rw [Nat.and_mod_two_pow, show 65487 % 2 ^ 6 = 2 ^ 4 - 1 by norm_num,
      Nat.and_two_pow_sub_one_eq_mod]
    omega
  omega

/-- A word selects the row of ENCODE_FRAME exactly when OP is 2 and the reserved bits are 0 (rules R81
and R83). -/
theorem encodeFrame_selected_iff (w : Word) :
    w &&& encodeFrameMask = 0x00000002#32 ↔ w.toNat % 16 = 2 ∧ w.toNat / 64 % 1024 = 0 := by
  rw [← BitVec.toNat_inj, and_encodeFrameMask_toNat]
  simp only [BitVec.toNat_ofNat]
  omega

end Sys2Proof
end

