-- ==== Sys2Proof/Laws/PerInstr.lean ====
section
/-! SUPPORT. The family OpField: the low four bits of a command's word are its OP, for every command (rules R81
and R83), so that RESULT.LAST_OP reports them (rule R23). -/

namespace Sys2Proof.Laws.OpField

/-- The OP field of the command's word is the command's OP. -/
def Statement (i : Instr) : Prop := opField (encode i) = i.op

theorem nop : Statement .nop := rfl

theorem configure : Statement .configure := rfl

theorem encodeFrame (n : Nat) (pre post : Bool) : Statement (.encodeFrame n pre post) := by
  apply BitVec.eq_of_toNat_eq
  rw [opField_toNat, encodeFrame_toNat]
  simp only [Instr.op, BitVec.toNat_ofNat]
  omega

theorem generateLatch : Statement .generateLatch := rfl

theorem clearError : Statement .clearError := rfl

theorem softReset : Statement .softReset := rfl

end Sys2Proof.Laws.OpField
end

