-- ==== Sys2Proof/Laws/State.lean ====
section
/-! SUPPORT. One lemma for each field of State under each named update of the state, true by `rfl`, so that no
later proof unfolds a record update. -/

namespace Sys2Proof.Machine

/-! Completing a command (rule R43) -/

@[simp] theorem State.finish_pending (s : State) (code : ResultCode) (op : BitVec 4) (bytes : List Byte) :
    (s.finish code op bytes).pending = none := rfl
@[simp] theorem State.finish_configured (s : State) (code : ResultCode) (op : BitVec 4) (bytes : List Byte) :
    (s.finish code op bytes).configured = s.configured := rfl
@[simp] theorem State.finish_lockViolation (s : State) (code : ResultCode) (op : BitVec 4) (bytes : List Byte) :
    (s.finish code op bytes).lockViolation = s.lockViolation := rfl
@[simp] theorem State.finish_busyViolation (s : State) (code : ResultCode) (op : BitVec 4) (bytes : List Byte) :
    (s.finish code op bytes).busyViolation = s.busyViolation := rfl
@[simp] theorem State.finish_resultCode (s : State) (code : ResultCode) (op : BitVec 4) (bytes : List Byte) :
    (s.finish code op bytes).resultCode = code := rfl
@[simp] theorem State.finish_lastOp (s : State) (code : ResultCode) (op : BitVec 4) (bytes : List Byte) :
    (s.finish code op bytes).lastOp = op := rfl
@[simp] theorem State.finish_cfgErrCode (s : State) (code : ResultCode) (op : BitVec 4) (bytes : List Byte) :
    (s.finish code op bytes).cfgErrCode = s.cfgErrCode := rfl
@[simp] theorem State.finish_cfgErrDelta (s : State) (code : ResultCode) (op : BitVec 4) (bytes : List Byte) :
    (s.finish code op bytes).cfgErrDelta = s.cfgErrDelta := rfl
@[simp] theorem State.finish_valErrPixel (s : State) (code : ResultCode) (op : BitVec 4) (bytes : List Byte) :
    (s.finish code op bytes).valErrPixel = s.valErrPixel := rfl
@[simp] theorem State.finish_valErrChannel (s : State) (code : ResultCode) (op : BitVec 4) (bytes : List Byte) :
    (s.finish code op bytes).valErrChannel = s.valErrChannel := rfl
@[simp] theorem State.finish_outLen (s : State) (code : ResultCode) (op : BitVec 4) (bytes : List Byte) :
    (s.finish code op bytes).outLen = BitVec.ofNat 32 bytes.length := rfl
@[simp] theorem State.finish_derived (s : State) (code : ResultCode) (op : BitVec 4) (bytes : List Byte) :
    (s.finish code op bytes).derived = s.derived := rfl
@[simp] theorem State.finish_npixMax (s : State) (code : ResultCode) (op : BitVec 4) (bytes : List Byte) :
    (s.finish code op bytes).npixMax = s.npixMax := rfl
@[simp] theorem State.finish_cfg (s : State) (code : ResultCode) (op : BitVec 4) (bytes : List Byte) :
    (s.finish code op bytes).cfg = s.cfg := rfl
@[simp] theorem State.finish_pix (s : State) (code : ResultCode) (op : BitVec 4) (bytes : List Byte) :
    (s.finish code op bytes).pix = s.pix := rfl
@[simp] theorem State.finish_pixDraw (s : State) (code : ResultCode) (op : BitVec 4) (bytes : List Byte) :
    (s.finish code op bytes).pixDraw = s.pixDraw := rfl
@[simp] theorem State.finish_out (s : State) (code : ResultCode) (op : BitVec 4) (bytes : List Byte) :
    (s.finish code op bytes).out = s.out ++ bytes := rfl
@[simp] theorem State.finish_host (s : State) (code : ResultCode) (op : BitVec 4) (bytes : List Byte) :
    (s.finish code op bytes).host = s.host := rfl
@[simp] theorem State.finish_turns (s : State) (code : ResultCode) (op : BitVec 4) (bytes : List Byte) :
    (s.finish code op bytes).turns = s.turns := rfl

/-! Writing the derived registers -/

@[simp] theorem State.setDerived_pending (s : State) (d : DerivedRegs) :
    (s.setDerived d).pending = s.pending := rfl
@[simp] theorem State.setDerived_configured (s : State) (d : DerivedRegs) :
    (s.setDerived d).configured = s.configured := rfl
@[simp] theorem State.setDerived_lockViolation (s : State) (d : DerivedRegs) :
    (s.setDerived d).lockViolation = s.lockViolation := rfl
@[simp] theorem State.setDerived_busyViolation (s : State) (d : DerivedRegs) :
    (s.setDerived d).busyViolation = s.busyViolation := rfl
@[simp] theorem State.setDerived_resultCode (s : State) (d : DerivedRegs) :
    (s.setDerived d).resultCode = s.resultCode := rfl
@[simp] theorem State.setDerived_lastOp (s : State) (d : DerivedRegs) :
    (s.setDerived d).lastOp = s.lastOp := rfl
@[simp] theorem State.setDerived_cfgErrCode (s : State) (d : DerivedRegs) :
    (s.setDerived d).cfgErrCode = s.cfgErrCode := rfl
@[simp] theorem State.setDerived_cfgErrDelta (s : State) (d : DerivedRegs) :
    (s.setDerived d).cfgErrDelta = s.cfgErrDelta := rfl
@[simp] theorem State.setDerived_valErrPixel (s : State) (d : DerivedRegs) :
    (s.setDerived d).valErrPixel = s.valErrPixel := rfl
@[simp] theorem State.setDerived_valErrChannel (s : State) (d : DerivedRegs) :
    (s.setDerived d).valErrChannel = s.valErrChannel := rfl
@[simp] theorem State.setDerived_outLen (s : State) (d : DerivedRegs) :
    (s.setDerived d).outLen = s.outLen := rfl
@[simp] theorem State.setDerived_derived (s : State) (d : DerivedRegs) :
    (s.setDerived d).derived = d := rfl
@[simp] theorem State.setDerived_npixMax (s : State) (d : DerivedRegs) :
    (s.setDerived d).npixMax = s.npixMax := rfl
@[simp] theorem State.setDerived_cfg (s : State) (d : DerivedRegs) :
    (s.setDerived d).cfg = s.cfg := rfl
@[simp] theorem State.setDerived_pix (s : State) (d : DerivedRegs) :
    (s.setDerived d).pix = s.pix := rfl
@[simp] theorem State.setDerived_pixDraw (s : State) (d : DerivedRegs) :
    (s.setDerived d).pixDraw = s.pixDraw := rfl
@[simp] theorem State.setDerived_out (s : State) (d : DerivedRegs) :
    (s.setDerived d).out = s.out := rfl
@[simp] theorem State.setDerived_host (s : State) (d : DerivedRegs) :
    (s.setDerived d).host = s.host := rfl
@[simp] theorem State.setDerived_turns (s : State) (d : DerivedRegs) :
    (s.setDerived d).turns = s.turns := rfl

/-! Writing CFG_ERR_CODE and CFG_ERR_DELTA -/

@[simp] theorem State.setCfgErr_pending (s : State) (e : Option CfgError) (delta : Word) :
    (s.setCfgErr e delta).pending = s.pending := rfl
@[simp] theorem State.setCfgErr_configured (s : State) (e : Option CfgError) (delta : Word) :
    (s.setCfgErr e delta).configured = s.configured := rfl
@[simp] theorem State.setCfgErr_lockViolation (s : State) (e : Option CfgError) (delta : Word) :
    (s.setCfgErr e delta).lockViolation = s.lockViolation := rfl
@[simp] theorem State.setCfgErr_busyViolation (s : State) (e : Option CfgError) (delta : Word) :
    (s.setCfgErr e delta).busyViolation = s.busyViolation := rfl
@[simp] theorem State.setCfgErr_resultCode (s : State) (e : Option CfgError) (delta : Word) :
    (s.setCfgErr e delta).resultCode = s.resultCode := rfl
@[simp] theorem State.setCfgErr_lastOp (s : State) (e : Option CfgError) (delta : Word) :
    (s.setCfgErr e delta).lastOp = s.lastOp := rfl
@[simp] theorem State.setCfgErr_cfgErrCode (s : State) (e : Option CfgError) (delta : Word) :
    (s.setCfgErr e delta).cfgErrCode = e := rfl
@[simp] theorem State.setCfgErr_cfgErrDelta (s : State) (e : Option CfgError) (delta : Word) :
    (s.setCfgErr e delta).cfgErrDelta = delta := rfl
@[simp] theorem State.setCfgErr_valErrPixel (s : State) (e : Option CfgError) (delta : Word) :
    (s.setCfgErr e delta).valErrPixel = s.valErrPixel := rfl
@[simp] theorem State.setCfgErr_valErrChannel (s : State) (e : Option CfgError) (delta : Word) :
    (s.setCfgErr e delta).valErrChannel = s.valErrChannel := rfl
@[simp] theorem State.setCfgErr_outLen (s : State) (e : Option CfgError) (delta : Word) :
    (s.setCfgErr e delta).outLen = s.outLen := rfl
@[simp] theorem State.setCfgErr_derived (s : State) (e : Option CfgError) (delta : Word) :
    (s.setCfgErr e delta).derived = s.derived := rfl
@[simp] theorem State.setCfgErr_npixMax (s : State) (e : Option CfgError) (delta : Word) :
    (s.setCfgErr e delta).npixMax = s.npixMax := rfl
@[simp] theorem State.setCfgErr_cfg (s : State) (e : Option CfgError) (delta : Word) :
    (s.setCfgErr e delta).cfg = s.cfg := rfl
@[simp] theorem State.setCfgErr_pix (s : State) (e : Option CfgError) (delta : Word) :
    (s.setCfgErr e delta).pix = s.pix := rfl
@[simp] theorem State.setCfgErr_pixDraw (s : State) (e : Option CfgError) (delta : Word) :
    (s.setCfgErr e delta).pixDraw = s.pixDraw := rfl
@[simp] theorem State.setCfgErr_out (s : State) (e : Option CfgError) (delta : Word) :
    (s.setCfgErr e delta).out = s.out := rfl
@[simp] theorem State.setCfgErr_host (s : State) (e : Option CfgError) (delta : Word) :
    (s.setCfgErr e delta).host = s.host := rfl
@[simp] theorem State.setCfgErr_turns (s : State) (e : Option CfgError) (delta : Word) :
    (s.setCfgErr e delta).turns = s.turns := rfl

/-! Writing VAL_ERR_PIXEL and VAL_ERR_CHANNEL -/

@[simp] theorem State.setValErr_pending (s : State) (p : BitVec 16) (c : BitVec 2) :
    (s.setValErr p c).pending = s.pending := rfl
@[simp] theorem State.setValErr_configured (s : State) (p : BitVec 16) (c : BitVec 2) :
    (s.setValErr p c).configured = s.configured := rfl
@[simp] theorem State.setValErr_lockViolation (s : State) (p : BitVec 16) (c : BitVec 2) :
    (s.setValErr p c).lockViolation = s.lockViolation := rfl
@[simp] theorem State.setValErr_busyViolation (s : State) (p : BitVec 16) (c : BitVec 2) :
    (s.setValErr p c).busyViolation = s.busyViolation := rfl
@[simp] theorem State.setValErr_resultCode (s : State) (p : BitVec 16) (c : BitVec 2) :
    (s.setValErr p c).resultCode = s.resultCode := rfl
@[simp] theorem State.setValErr_lastOp (s : State) (p : BitVec 16) (c : BitVec 2) :
    (s.setValErr p c).lastOp = s.lastOp := rfl
@[simp] theorem State.setValErr_cfgErrCode (s : State) (p : BitVec 16) (c : BitVec 2) :
    (s.setValErr p c).cfgErrCode = s.cfgErrCode := rfl
@[simp] theorem State.setValErr_cfgErrDelta (s : State) (p : BitVec 16) (c : BitVec 2) :
    (s.setValErr p c).cfgErrDelta = s.cfgErrDelta := rfl
@[simp] theorem State.setValErr_valErrPixel (s : State) (p : BitVec 16) (c : BitVec 2) :
    (s.setValErr p c).valErrPixel = p := rfl
@[simp] theorem State.setValErr_valErrChannel (s : State) (p : BitVec 16) (c : BitVec 2) :
    (s.setValErr p c).valErrChannel = c := rfl
@[simp] theorem State.setValErr_outLen (s : State) (p : BitVec 16) (c : BitVec 2) :
    (s.setValErr p c).outLen = s.outLen := rfl
@[simp] theorem State.setValErr_derived (s : State) (p : BitVec 16) (c : BitVec 2) :
    (s.setValErr p c).derived = s.derived := rfl
@[simp] theorem State.setValErr_npixMax (s : State) (p : BitVec 16) (c : BitVec 2) :
    (s.setValErr p c).npixMax = s.npixMax := rfl
@[simp] theorem State.setValErr_cfg (s : State) (p : BitVec 16) (c : BitVec 2) :
    (s.setValErr p c).cfg = s.cfg := rfl
@[simp] theorem State.setValErr_pix (s : State) (p : BitVec 16) (c : BitVec 2) :
    (s.setValErr p c).pix = s.pix := rfl
@[simp] theorem State.setValErr_pixDraw (s : State) (p : BitVec 16) (c : BitVec 2) :
    (s.setValErr p c).pixDraw = s.pixDraw := rfl
@[simp] theorem State.setValErr_out (s : State) (p : BitVec 16) (c : BitVec 2) :
    (s.setValErr p c).out = s.out := rfl
@[simp] theorem State.setValErr_host (s : State) (p : BitVec 16) (c : BitVec 2) :
    (s.setValErr p c).host = s.host := rfl
@[simp] theorem State.setValErr_turns (s : State) (p : BitVec 16) (c : BitVec 2) :
    (s.setValErr p c).turns = s.turns := rfl

/-! Clearing the sticky flags -/

@[simp] theorem State.clearSticky_pending (s : State) : (s.clearSticky).pending = s.pending := rfl
@[simp] theorem State.clearSticky_configured (s : State) :
    (s.clearSticky).configured = s.configured := rfl
@[simp] theorem State.clearSticky_lockViolation (s : State) :
    (s.clearSticky).lockViolation = false := rfl
@[simp] theorem State.clearSticky_busyViolation (s : State) :
    (s.clearSticky).busyViolation = false := rfl
@[simp] theorem State.clearSticky_resultCode (s : State) :
    (s.clearSticky).resultCode = s.resultCode := rfl
@[simp] theorem State.clearSticky_lastOp (s : State) : (s.clearSticky).lastOp = s.lastOp := rfl
@[simp] theorem State.clearSticky_cfgErrCode (s : State) :
    (s.clearSticky).cfgErrCode = s.cfgErrCode := rfl
@[simp] theorem State.clearSticky_cfgErrDelta (s : State) :
    (s.clearSticky).cfgErrDelta = s.cfgErrDelta := rfl
@[simp] theorem State.clearSticky_valErrPixel (s : State) :
    (s.clearSticky).valErrPixel = s.valErrPixel := rfl
@[simp] theorem State.clearSticky_valErrChannel (s : State) :
    (s.clearSticky).valErrChannel = s.valErrChannel := rfl
@[simp] theorem State.clearSticky_outLen (s : State) : (s.clearSticky).outLen = s.outLen := rfl
@[simp] theorem State.clearSticky_derived (s : State) : (s.clearSticky).derived = s.derived := rfl
@[simp] theorem State.clearSticky_npixMax (s : State) : (s.clearSticky).npixMax = s.npixMax := rfl
@[simp] theorem State.clearSticky_cfg (s : State) : (s.clearSticky).cfg = s.cfg := rfl
@[simp] theorem State.clearSticky_pix (s : State) : (s.clearSticky).pix = s.pix := rfl
@[simp] theorem State.clearSticky_pixDraw (s : State) : (s.clearSticky).pixDraw = s.pixDraw := rfl
@[simp] theorem State.clearSticky_out (s : State) : (s.clearSticky).out = s.out := rfl
@[simp] theorem State.clearSticky_host (s : State) : (s.clearSticky).host = s.host := rfl
@[simp] theorem State.clearSticky_turns (s : State) : (s.clearSticky).turns = s.turns := rfl

/-! Setting CONFIGURED -/

@[simp] theorem State.setConfigured_pending (s : State) :
    (s.setConfigured).pending = s.pending := rfl
@[simp] theorem State.setConfigured_configured (s : State) :
    (s.setConfigured).configured = true := rfl
@[simp] theorem State.setConfigured_lockViolation (s : State) :
    (s.setConfigured).lockViolation = s.lockViolation := rfl
@[simp] theorem State.setConfigured_busyViolation (s : State) :
    (s.setConfigured).busyViolation = s.busyViolation := rfl
@[simp] theorem State.setConfigured_resultCode (s : State) :
    (s.setConfigured).resultCode = s.resultCode := rfl
@[simp] theorem State.setConfigured_lastOp (s : State) : (s.setConfigured).lastOp = s.lastOp := rfl
@[simp] theorem State.setConfigured_cfgErrCode (s : State) :
    (s.setConfigured).cfgErrCode = s.cfgErrCode := rfl
@[simp] theorem State.setConfigured_cfgErrDelta (s : State) :
    (s.setConfigured).cfgErrDelta = s.cfgErrDelta := rfl
@[simp] theorem State.setConfigured_valErrPixel (s : State) :
    (s.setConfigured).valErrPixel = s.valErrPixel := rfl
@[simp] theorem State.setConfigured_valErrChannel (s : State) :
    (s.setConfigured).valErrChannel = s.valErrChannel := rfl
@[simp] theorem State.setConfigured_outLen (s : State) : (s.setConfigured).outLen = s.outLen := rfl
@[simp] theorem State.setConfigured_derived (s : State) :
    (s.setConfigured).derived = s.derived := rfl
@[simp] theorem State.setConfigured_npixMax (s : State) :
    (s.setConfigured).npixMax = s.npixMax := rfl
@[simp] theorem State.setConfigured_cfg (s : State) : (s.setConfigured).cfg = s.cfg := rfl
@[simp] theorem State.setConfigured_pix (s : State) : (s.setConfigured).pix = s.pix := rfl
@[simp] theorem State.setConfigured_pixDraw (s : State) :
    (s.setConfigured).pixDraw = s.pixDraw := rfl
@[simp] theorem State.setConfigured_out (s : State) : (s.setConfigured).out = s.out := rfl
@[simp] theorem State.setConfigured_host (s : State) : (s.setConfigured).host = s.host := rfl
@[simp] theorem State.setConfigured_turns (s : State) : (s.setConfigured).turns = s.turns := rfl

/-! Writing a pixel word -/

@[simp] theorem State.storePix_pending (s : State) (i : Nat) (c : BitVec 2) (w : Word) :
    (s.storePix i c w).pending = s.pending := rfl
@[simp] theorem State.storePix_configured (s : State) (i : Nat) (c : BitVec 2) (w : Word) :
    (s.storePix i c w).configured = s.configured := rfl
@[simp] theorem State.storePix_lockViolation (s : State) (i : Nat) (c : BitVec 2) (w : Word) :
    (s.storePix i c w).lockViolation = s.lockViolation := rfl
@[simp] theorem State.storePix_busyViolation (s : State) (i : Nat) (c : BitVec 2) (w : Word) :
    (s.storePix i c w).busyViolation = s.busyViolation := rfl
@[simp] theorem State.storePix_resultCode (s : State) (i : Nat) (c : BitVec 2) (w : Word) :
    (s.storePix i c w).resultCode = s.resultCode := rfl
@[simp] theorem State.storePix_lastOp (s : State) (i : Nat) (c : BitVec 2) (w : Word) :
    (s.storePix i c w).lastOp = s.lastOp := rfl
@[simp] theorem State.storePix_cfgErrCode (s : State) (i : Nat) (c : BitVec 2) (w : Word) :
    (s.storePix i c w).cfgErrCode = s.cfgErrCode := rfl
@[simp] theorem State.storePix_cfgErrDelta (s : State) (i : Nat) (c : BitVec 2) (w : Word) :
    (s.storePix i c w).cfgErrDelta = s.cfgErrDelta := rfl
@[simp] theorem State.storePix_valErrPixel (s : State) (i : Nat) (c : BitVec 2) (w : Word) :
    (s.storePix i c w).valErrPixel = s.valErrPixel := rfl
@[simp] theorem State.storePix_valErrChannel (s : State) (i : Nat) (c : BitVec 2) (w : Word) :
    (s.storePix i c w).valErrChannel = s.valErrChannel := rfl
@[simp] theorem State.storePix_outLen (s : State) (i : Nat) (c : BitVec 2) (w : Word) :
    (s.storePix i c w).outLen = s.outLen := rfl
@[simp] theorem State.storePix_derived (s : State) (i : Nat) (c : BitVec 2) (w : Word) :
    (s.storePix i c w).derived = s.derived := rfl
@[simp] theorem State.storePix_npixMax (s : State) (i : Nat) (c : BitVec 2) (w : Word) :
    (s.storePix i c w).npixMax = s.npixMax := rfl
@[simp] theorem State.storePix_cfg (s : State) (i : Nat) (c : BitVec 2) (w : Word) :
    (s.storePix i c w).cfg = s.cfg := rfl
@[simp] theorem State.storePix_pix (s : State) (i : Nat) (c : BitVec 2) (w : Word) :
    (s.storePix i c w).pix = s.pix.writeWord (pixAddr i c) w := rfl
@[simp] theorem State.storePix_pixDraw (s : State) (i : Nat) (c : BitVec 2) (w : Word) :
    (s.storePix i c w).pixDraw = s.pixDraw := rfl
@[simp] theorem State.storePix_out (s : State) (i : Nat) (c : BitVec 2) (w : Word) :
    (s.storePix i c w).out = s.out := rfl
@[simp] theorem State.storePix_host (s : State) (i : Nat) (c : BitVec 2) (w : Word) :
    (s.storePix i c w).host = s.host := rfl
@[simp] theorem State.storePix_turns (s : State) (i : Nat) (c : BitVec 2) (w : Word) :
    (s.storePix i c w).turns = s.turns := rfl

/-! Resetting the registers (rule R185) -/

@[simp] theorem State.resetRegisters_pending (s : State) :
    (s.resetRegisters).pending = s.pending := rfl
@[simp] theorem State.resetRegisters_configured (s : State) :
    (s.resetRegisters).configured = false := rfl
@[simp] theorem State.resetRegisters_lockViolation (s : State) :
    (s.resetRegisters).lockViolation = false := rfl
@[simp] theorem State.resetRegisters_busyViolation (s : State) :
    (s.resetRegisters).busyViolation = false := rfl
@[simp] theorem State.resetRegisters_resultCode (s : State) :
    (s.resetRegisters).resultCode = .ok := rfl
@[simp] theorem State.resetRegisters_lastOp (s : State) : (s.resetRegisters).lastOp = 0#4 := rfl
@[simp] theorem State.resetRegisters_cfgErrCode (s : State) :
    (s.resetRegisters).cfgErrCode = none := rfl
@[simp] theorem State.resetRegisters_cfgErrDelta (s : State) :
    (s.resetRegisters).cfgErrDelta = 0#32 := rfl
@[simp] theorem State.resetRegisters_valErrPixel (s : State) :
    (s.resetRegisters).valErrPixel = 0#16 := rfl
@[simp] theorem State.resetRegisters_valErrChannel (s : State) :
    (s.resetRegisters).valErrChannel = 0#2 := rfl
@[simp] theorem State.resetRegisters_outLen (s : State) : (s.resetRegisters).outLen = 0#32 := rfl
@[simp] theorem State.resetRegisters_derived (s : State) :
    (s.resetRegisters).derived = .reset := rfl
@[simp] theorem State.resetRegisters_npixMax (s : State) :
    (s.resetRegisters).npixMax = s.npixMax := rfl
@[simp] theorem State.resetRegisters_cfg (s : State) : (s.resetRegisters).cfg = .reset := rfl
@[simp] theorem State.resetRegisters_pix (s : State) : (s.resetRegisters).pix = s.pix := rfl
@[simp] theorem State.resetRegisters_pixDraw (s : State) :
    (s.resetRegisters).pixDraw = s.pixDraw := rfl
@[simp] theorem State.resetRegisters_out (s : State) : (s.resetRegisters).out = s.out := rfl
@[simp] theorem State.resetRegisters_host (s : State) : (s.resetRegisters).host = s.host := rfl
@[simp] theorem State.resetRegisters_turns (s : State) : (s.resetRegisters).turns = s.turns := rfl

/-! Hardware reset (rule R230) -/

@[simp] theorem State.hardwareReset_pending (s : State) : (s.hardwareReset).pending = none := rfl
@[simp] theorem State.hardwareReset_configured (s : State) :
    (s.hardwareReset).configured = false := rfl
@[simp] theorem State.hardwareReset_lockViolation (s : State) :
    (s.hardwareReset).lockViolation = false := rfl
@[simp] theorem State.hardwareReset_busyViolation (s : State) :
    (s.hardwareReset).busyViolation = false := rfl
@[simp] theorem State.hardwareReset_resultCode (s : State) :
    (s.hardwareReset).resultCode = .ok := rfl
@[simp] theorem State.hardwareReset_lastOp (s : State) : (s.hardwareReset).lastOp = 0#4 := rfl
@[simp] theorem State.hardwareReset_cfgErrCode (s : State) :
    (s.hardwareReset).cfgErrCode = none := rfl
@[simp] theorem State.hardwareReset_cfgErrDelta (s : State) :
    (s.hardwareReset).cfgErrDelta = 0#32 := rfl
@[simp] theorem State.hardwareReset_valErrPixel (s : State) :
    (s.hardwareReset).valErrPixel = 0#16 := rfl
@[simp] theorem State.hardwareReset_valErrChannel (s : State) :
    (s.hardwareReset).valErrChannel = 0#2 := rfl
@[simp] theorem State.hardwareReset_outLen (s : State) : (s.hardwareReset).outLen = 0#32 := rfl
@[simp] theorem State.hardwareReset_derived (s : State) : (s.hardwareReset).derived = .reset := rfl
@[simp] theorem State.hardwareReset_npixMax (s : State) :
    (s.hardwareReset).npixMax = s.npixMax := rfl
@[simp] theorem State.hardwareReset_cfg (s : State) : (s.hardwareReset).cfg = .reset := rfl
@[simp] theorem State.hardwareReset_pix (s : State) : (s.hardwareReset).pix = [] := rfl
@[simp] theorem State.hardwareReset_pixDraw (s : State) :
    (s.hardwareReset).pixDraw = s.pixDraw + 1 := rfl
@[simp] theorem State.hardwareReset_out (s : State) : (s.hardwareReset).out = [] := rfl
@[simp] theorem State.hardwareReset_host (s : State) : (s.hardwareReset).host = s.host := rfl
@[simp] theorem State.hardwareReset_turns (s : State) : (s.hardwareReset).turns = s.turns := rfl

/-! Taking a turn off the input -/

@[simp] theorem State.popTurn_pending (s : State) : (s.popTurn).pending = s.pending := rfl
@[simp] theorem State.popTurn_configured (s : State) : (s.popTurn).configured = s.configured := rfl
@[simp] theorem State.popTurn_lockViolation (s : State) :
    (s.popTurn).lockViolation = s.lockViolation := rfl
@[simp] theorem State.popTurn_busyViolation (s : State) :
    (s.popTurn).busyViolation = s.busyViolation := rfl
@[simp] theorem State.popTurn_resultCode (s : State) : (s.popTurn).resultCode = s.resultCode := rfl
@[simp] theorem State.popTurn_lastOp (s : State) : (s.popTurn).lastOp = s.lastOp := rfl
@[simp] theorem State.popTurn_cfgErrCode (s : State) : (s.popTurn).cfgErrCode = s.cfgErrCode := rfl
@[simp] theorem State.popTurn_cfgErrDelta (s : State) :
    (s.popTurn).cfgErrDelta = s.cfgErrDelta := rfl
@[simp] theorem State.popTurn_valErrPixel (s : State) :
    (s.popTurn).valErrPixel = s.valErrPixel := rfl
@[simp] theorem State.popTurn_valErrChannel (s : State) :
    (s.popTurn).valErrChannel = s.valErrChannel := rfl
@[simp] theorem State.popTurn_outLen (s : State) : (s.popTurn).outLen = s.outLen := rfl
@[simp] theorem State.popTurn_derived (s : State) : (s.popTurn).derived = s.derived := rfl
@[simp] theorem State.popTurn_npixMax (s : State) : (s.popTurn).npixMax = s.npixMax := rfl
@[simp] theorem State.popTurn_cfg (s : State) : (s.popTurn).cfg = s.cfg := rfl
@[simp] theorem State.popTurn_pix (s : State) : (s.popTurn).pix = s.pix := rfl
@[simp] theorem State.popTurn_pixDraw (s : State) : (s.popTurn).pixDraw = s.pixDraw := rfl
@[simp] theorem State.popTurn_out (s : State) : (s.popTurn).out = s.out := rfl
@[simp] theorem State.popTurn_host (s : State) : (s.popTurn).host = s.host := rfl
@[simp] theorem State.popTurn_turns (s : State) : (s.popTurn).turns = s.turns.tail := rfl

/-! Moving the Host's counter -/

@[simp] theorem State.setHpc_pending (s : State) (t : Nat) : (s.setHpc t).pending = s.pending := rfl
@[simp] theorem State.setHpc_configured (s : State) (t : Nat) :
    (s.setHpc t).configured = s.configured := rfl
@[simp] theorem State.setHpc_lockViolation (s : State) (t : Nat) :
    (s.setHpc t).lockViolation = s.lockViolation := rfl
@[simp] theorem State.setHpc_busyViolation (s : State) (t : Nat) :
    (s.setHpc t).busyViolation = s.busyViolation := rfl
@[simp] theorem State.setHpc_resultCode (s : State) (t : Nat) :
    (s.setHpc t).resultCode = s.resultCode := rfl
@[simp] theorem State.setHpc_lastOp (s : State) (t : Nat) : (s.setHpc t).lastOp = s.lastOp := rfl
@[simp] theorem State.setHpc_cfgErrCode (s : State) (t : Nat) :
    (s.setHpc t).cfgErrCode = s.cfgErrCode := rfl
@[simp] theorem State.setHpc_cfgErrDelta (s : State) (t : Nat) :
    (s.setHpc t).cfgErrDelta = s.cfgErrDelta := rfl
@[simp] theorem State.setHpc_valErrPixel (s : State) (t : Nat) :
    (s.setHpc t).valErrPixel = s.valErrPixel := rfl
@[simp] theorem State.setHpc_valErrChannel (s : State) (t : Nat) :
    (s.setHpc t).valErrChannel = s.valErrChannel := rfl
@[simp] theorem State.setHpc_outLen (s : State) (t : Nat) : (s.setHpc t).outLen = s.outLen := rfl
@[simp] theorem State.setHpc_derived (s : State) (t : Nat) : (s.setHpc t).derived = s.derived := rfl
@[simp] theorem State.setHpc_npixMax (s : State) (t : Nat) : (s.setHpc t).npixMax = s.npixMax := rfl
@[simp] theorem State.setHpc_cfg (s : State) (t : Nat) : (s.setHpc t).cfg = s.cfg := rfl
@[simp] theorem State.setHpc_pix (s : State) (t : Nat) : (s.setHpc t).pix = s.pix := rfl
@[simp] theorem State.setHpc_pixDraw (s : State) (t : Nat) : (s.setHpc t).pixDraw = s.pixDraw := rfl
@[simp] theorem State.setHpc_out (s : State) (t : Nat) : (s.setHpc t).out = s.out := rfl
@[simp] theorem State.setHpc_host (s : State) (t : Nat) :
    (s.setHpc t).host = { s.host with hpc := t } := rfl
@[simp] theorem State.setHpc_turns (s : State) (t : Nat) : (s.setHpc t).turns = s.turns := rfl

/-! Stopping the Host's program -/

@[simp] theorem State.stopHost_pending (s : State) (v : Verdict) :
    (s.stopHost v).pending = s.pending := rfl
@[simp] theorem State.stopHost_configured (s : State) (v : Verdict) :
    (s.stopHost v).configured = s.configured := rfl
@[simp] theorem State.stopHost_lockViolation (s : State) (v : Verdict) :
    (s.stopHost v).lockViolation = s.lockViolation := rfl
@[simp] theorem State.stopHost_busyViolation (s : State) (v : Verdict) :
    (s.stopHost v).busyViolation = s.busyViolation := rfl
@[simp] theorem State.stopHost_resultCode (s : State) (v : Verdict) :
    (s.stopHost v).resultCode = s.resultCode := rfl
@[simp] theorem State.stopHost_lastOp (s : State) (v : Verdict) :
    (s.stopHost v).lastOp = s.lastOp := rfl
@[simp] theorem State.stopHost_cfgErrCode (s : State) (v : Verdict) :
    (s.stopHost v).cfgErrCode = s.cfgErrCode := rfl
@[simp] theorem State.stopHost_cfgErrDelta (s : State) (v : Verdict) :
    (s.stopHost v).cfgErrDelta = s.cfgErrDelta := rfl
@[simp] theorem State.stopHost_valErrPixel (s : State) (v : Verdict) :
    (s.stopHost v).valErrPixel = s.valErrPixel := rfl
@[simp] theorem State.stopHost_valErrChannel (s : State) (v : Verdict) :
    (s.stopHost v).valErrChannel = s.valErrChannel := rfl
@[simp] theorem State.stopHost_outLen (s : State) (v : Verdict) :
    (s.stopHost v).outLen = s.outLen := rfl
@[simp] theorem State.stopHost_derived (s : State) (v : Verdict) :
    (s.stopHost v).derived = s.derived := rfl
@[simp] theorem State.stopHost_npixMax (s : State) (v : Verdict) :
    (s.stopHost v).npixMax = s.npixMax := rfl
@[simp] theorem State.stopHost_cfg (s : State) (v : Verdict) : (s.stopHost v).cfg = s.cfg := rfl
@[simp] theorem State.stopHost_pix (s : State) (v : Verdict) : (s.stopHost v).pix = s.pix := rfl
@[simp] theorem State.stopHost_pixDraw (s : State) (v : Verdict) :
    (s.stopHost v).pixDraw = s.pixDraw := rfl
@[simp] theorem State.stopHost_out (s : State) (v : Verdict) : (s.stopHost v).out = s.out := rfl
@[simp] theorem State.stopHost_host (s : State) (v : Verdict) :
    (s.stopHost v).host = { s.host with verdict := some v } := rfl
@[simp] theorem State.stopHost_turns (s : State) (v : Verdict) :
    (s.stopHost v).turns = s.turns := rfl

end Sys2Proof.Machine
end

