-- ==== Sys2Proof/Tests/Slice0.lean ====
section
/-! SUPPORT. Tests on small states, each about one step, with expected values from the spec's own vectors
(95_test_vectors.md, named in each docstring), and for every statement with hypotheses a witness that meets
them together. -/

namespace Sys2Proof.Tests

open Sys2Proof.Machine

/-! ### Small states -/

/-- Config V1 of 95_test_vectors.md: 8 MHz, L = 16, GRB, factor 1.0, the windows W_A. -/
def cfgV1 : ConfigRegs :=
  ⟨8000000#32, 16#32, 0x2103#32, 0x100#32, 200#32, 350#32, 500#32, 550#32, 700#32, 5500#32,
    450#32, 600#32, 5000#32, 6000#32⟩

/-- After reset, for a block with NPIX_MAX = 4. -/
def idle : State := { State.reset with npixMax := 4#16 }

/-- The same with config V1 written. -/
def ready : State := { idle with cfg := cfgV1 }

/-- The derived registers of vector V1. -/
def derivedV1 : DerivedRegs := ⟨0x0000E000#32, 0x0000FC00#32, 0x0A0D0603#32, 6#32⟩

/-- The block after vector V1. -/
def live : State := { ready with configured := true, derived := derivedV1 }

/-- Write the three words of a pixel tuple. -/
def setPixel (s : State) (i : Nat) (r g b : Word) : State :=
  ((s.storePix i 0#2 r).storePix i 1#2 g).storePix i 2#2 b

/-- The configured block with pixel 0 = (0x80, 0x01, 0xA5), as in vector S3. -/
def liveS3 : State := setPixel live 0 0x80#32 0x01#32 0xA5#32

/-- The configured block with the pixels of vector S9. -/
def liveS9 : State := setPixel (setPixel live 0 0#32 0#32 0#32) 1 1#32 0x100#32 0xFFFFFFFF#32

/-- One Encoder step on a pending word. -/
def after (s : State) (w : Word) : Result := step { s with pending := some w }

/-- A property of the next state; false of a fault or refusal. -/
def holds (r : Result) (p : State → Bool) : Bool :=
  match r with
  | .next s => p s
  | .fault _ => false
  | .refused _ => false

/-- Z and O, the two bytes of a logical bit under config V1 (95_test_vectors.md, notation). -/
def symZ : List Byte := [0xE0#8, 0x00#8]
def symO : List Byte := [0xFC#8, 0x00#8]

/-! ### Well-formed instructions -/

/-- N has 16 bits (rule R82): 65536 pixels make no command word. -/
theorem test_wellFormed_refuses_count : ¬ (Instr.encodeFrame 65536 false false).WellFormed := by decide

theorem test_wellFormed_takes_largest_count : (Instr.encodeFrame 65535 true true).WellFormed := by decide

/-! ### Decoding: words written out bit by bit from rules R81 to R83 -/

theorem test_decode_nop : decode 0b00000000000000000000000000000000#32 = .ok .nop := by decide

theorem test_decode_configure : decode 0b00000000000000000000000000000001#32 = .ok .configure := by decide

/-- N = 5 in [31:16], POST = 1 in [5], PRE = 0 in [4], OP = 2. -/
theorem test_decode_encodeFrame :
    decode 0b00000000000001010000000000100010#32 = .ok (.encodeFrame 5 false true) := by decide

/-- DEC5. -/
theorem test_decode_encodeFrame_largest : decode 0xFFFF0032#32 = .ok (.encodeFrame 65535 true true) := by
  decide

theorem test_decode_generateLatch : decode 0b00000000000000000000000000000011#32 = .ok .generateLatch := by
  decide

theorem test_decode_clearError : decode 0b00000000000000000000000000000100#32 = .ok .clearError := by decide

theorem test_decode_softReset : decode 0b00000000000000000000000000000101#32 = .ok .softReset := by decide

/-- DEC9 to DEC16. -/
theorem test_decode_illegal :
    [0x00000006#32, 0x0000000F#32, 0x00000042#32, 0x00000402#32, 0x00010001#32, 0x80000003#32,
      0x00000010#32, 0x00000024#32].map decode =
    [.error (.illegal 0x6#4), .error (.illegal 0xF#4), .error (.illegal 0x2#4), .error (.illegal 0x2#4),
      .error (.illegal 0x1#4), .error (.illegal 0x3#4), .error (.illegal 0x0#4),
      .error (.illegal 0x4#4)] := by decide

/-- The word of rule R86 with N = 3, PRE and POST, from its fields. -/
theorem test_encode_encodeFrame : encode (.encodeFrame 3 true true) = 0x00030032#32 := by decide

/-! ### One step of each command -/

/-- V1: a successful CONFIGURE. -/
theorem test_configure_v1 : holds (after ready 0x00000001#32) (fun s =>
    s.readReg .result == 0x00000100#32 && s.readReg .status == 0x00000002#32 &&
    s.derived == derivedV1) = true := by decide

/-- V14: 6.4 MHz, L = 8, T0H (200, 350, 312) misses by half a nanosecond: 0x11, 500 ps. -/
theorem test_configure_v14 :
    holds (after { idle with cfg := { cfgV1 with bitRateHz := 6400000#32, patternLen := 8#32, t0hMax := 312#32 } }
      0x00000001#32) (fun s =>
      s.readReg .result == 0x00000101#32 && s.readReg .cfgErrCode == 0x11#32 &&
      s.readReg .cfgErrDelta == 500#32 && s.readReg .status == 0#32) = true := by decide

/-- S3: G (0x01), R (0x80), B (0xA5), 48 bytes. -/
theorem test_encodeFrame_s3 : holds (after liveS3 0x00010002#32) (fun s =>
    s.readReg .result == 0x00000200#32 && s.readReg .outLen == 48#32 &&
    s.out == symZ ++ symZ ++ symZ ++ symZ ++ symZ ++ symZ ++ symZ ++ symO ++
      (symO ++ symZ ++ symZ ++ symZ ++ symZ ++ symZ ++ symZ ++ symZ) ++
      (symO ++ symZ ++ symO ++ symZ ++ symZ ++ symO ++ symZ ++ symO)) = true := by decide

/-- S9: the first illegal word in transmission order is G of pixel 1. -/
theorem test_encodeFrame_s9 : holds (after liveS9 0x00020002#32) (fun s =>
    s.readReg .result == 0x00000202#32 && s.readReg .valErrPixel == 1#32 &&
    s.readReg .valErrChannel == 1#32 && s.readReg .outLen == 0#32 && s.out == []) = true := by decide

/-- LAT1. -/
theorem test_generateLatch_lat1 : holds (after live 0x00000003#32) (fun s =>
    s.readReg .result == 0x00000300#32 && s.readReg .outLen == 6#32 &&
    s.out == [0#8, 0#8, 0#8, 0#8, 0#8, 0#8]) = true := by decide

/-- LAT11. -/
theorem test_generateLatch_unconfigured : holds (after ready 0x00000003#32) (fun s =>
    s.readReg .result == 0x00000303#32 && s.readReg .outLen == 0#32 && s.out == []) = true := by decide

/-- CTL3. -/
theorem test_nop_ctl3 :
    holds (after { live with resultCode := .valueError, lastOp := 0x2#4, valErrPixel := 1#16 } 0x00000000#32)
      (fun s => s.readReg .result == 0#32 && s.readReg .valErrPixel == 1#32 &&
        s.readReg .status == 0x00000002#32) = true := by decide

/-- CTL1. -/
theorem test_clearError_ctl1 :
    holds (after { live with lockViolation := true, busyViolation := true, valErrPixel := 1#16,
                             valErrChannel := 1#2 } 0x00000004#32)
      (fun s => s.readReg .status == 0x00000002#32 && s.readReg .valErrPixel == 0#32 &&
        s.readReg .valErrChannel == 0#32 && s.readReg .result == 0x00000400#32 &&
        s.readReg .pattern0 == 0xE000#32) = true := by decide

/-- CTL2. -/
theorem test_softReset_ctl2 : holds (after liveS3 0x00000005#32) (fun s =>
    s.readReg .status == 0#32 && s.readReg (.config .bitRateHz) == 0#32 && s.readReg .pattern0 == 0#32 &&
    s.readReg .latchBytes == 0#32 && s.readReg .result == 0x00000500#32 && s.pix == liveS3.pix &&
    s.readReg .npixMax == 4#32) = true := by decide

/-- DEC13: CONFIGURE with bit 16 set does not run. -/
theorem test_illegal_dec13 : holds (after ready 0x00010001#32) (fun s =>
    s.readReg .result == 0x00000105#32 && s.readReg .status == 0#32 && s.derived == .reset) = true := by
  decide

/-- Hardware reset discards a pending command (rule R230). -/
theorem test_hardwareReset :
    holds (step { liveS3 with pending := some 0x00010002#32, turns := [.hardwareReset] }) (fun s =>
      s.readReg .status == 0#32 && s.out == [] && s.cfg == .reset && s.pix == []) = true := by decide

/-- The word the host places is the one the next step runs. -/
theorem test_withFetchWord : holds (step (State.reset.withFetchWord 32 0x00000005)) (fun s =>
    s.readReg .result == 0x00000500#32) = true := by decide

theorem test_decodeTableWord : decodeTableWord 32 0x00030032 = some (.encodeFrame 3 true true) := by decide

/-! ### The bus port -/

/-- BUS6, BUS7 and BUS8: locked, never locked, and address bits [1:0] ignored. -/
theorem test_bus_write :
    (live.memWrite 0x040#21 6400000#32).memRead 0x040#21 = 8000000#32 ∧
    (live.memWrite 0x040#21 6400000#32).memRead 0x004#21 = 0x00000006#32 ∧
    (live.memWrite 0x100004#21 0x7F#32).pixWord 0 1#2 = 0x7F#32 ∧
    (live.memWrite 0x100006#21 5#32).memRead 0x100004#21 = 5#32 := by decide

/-- BUS1, BUS3, BUS12 and BUS13. -/
theorem test_bus_read :
    live.memRead 0x000#21 = 0#32 ∧ live.memRead 0x034#21 = 0#32 ∧ live.memRead 0x03C#21 = 0#32 ∧
    live.memRead 0x078#21 = 0#32 ∧ live.memRead 0x0FFFFC#21 = 0#32 ∧ live.memRead 0x100040#21 = 0#32 ∧
    live.memWrite 0x100040#21 1#32 = live ∧ live.memRead 0x030#21 = 4#32 := by decide

/-- BUS9, BUS10, BUS11 and BUS15: dropped while busy. -/
theorem test_bus_busy :
    let busy : State := { live with pending := some 0x00000003#32, resultCode := .countError }
    busy.memWrite 0x100000#21 1#32 = { busy with busyViolation := true } ∧
    busy.memWrite 0x000#21 3#32 = { busy with busyViolation := true } ∧
    busy.memWrite 0x040#21 1#32 = { busy with busyViolation := true } ∧
    busy.memRead 0x008#21 = 4#32 := by decide

/-- BUS14: the unused bits of CHAN_CFG are stored and ignored. -/
theorem test_bus_chanCfg :
    (ready.memWrite 0x048#21 0xFFFF2103#32).memRead 0x048#21 = 0xFFFF2103#32 ∧
    holds (after (ready.memWrite 0x048#21 0xFFFF2103#32) 1#32) (fun s => s.derived == derivedV1) = true := by
  decide

/-! ### The Host's assembly -/

/-- A program with each lexical form of rule R88, the loop of P3, and its primitives. -/
theorem test_assemble :
    assembleText "try: RUN ENCODE_FRAME 2, PRE, POST ; go\n SETPIX 1, 0x01, 2, -1\nBNE CMD, 0x0, 1, try\nWR PIX(1, 2), 7\nCHECKOK\nHALT"
      = .ok [.wr 0x000#21 0x00020032#32, .bne 0x004#21 1#32 0#32 1, .wr 0x100010#21 1#32,
        .wr 0x100014#21 2#32, .wr 0x100018#21 0xFFFFFFFF#32, .bne 0x000#21 0#32 1#32 0,
        .wr 0x100018#21 7#32, .expect 0x008#21 0xFF#32 0#32, .halt] := by decide

/-- The two assembly errors the rules name (rules R89 and R90). -/
theorem test_assemble_errors :
    assembleText "ENCODE_FRAME 65536" = .error (.countOutOfRange 65536) ∧
    assembleText "BNE CMD, 0, 1, nowhere" = .error (.labelNamesNothing "nowhere") := by decide

/-- One Host turn: EXPECT fails, and a program past its last statement passes (rule R89); the
counter stays where the program stops (assumption log 14). -/
theorem test_host_turn :
    holds (step (idle.loadProgram [.expect 0x004#21 0x1#32 0x1#32])) (fun s =>
      s.host.verdict == some .fail && s.host.hpc == 0) = true ∧
    holds (step (idle.loadProgram [])) (fun s => s.host.verdict == some .pass) = true := by decide

/-! ### Witnesses: each statement's hypotheses hold together somewhere -/

/-- What `derive` answers for config V1. -/
def derivationV1 : Derivation :=
  ⟨3, 6, 13, 10, List.replicate 3 true ++ List.replicate 13 false,
    List.replicate 6 true ++ List.replicate 10 false, 6⟩

theorem derive_v1 : cfgV1.derive = .ok derivationV1 := by decide

/-- Vector V11: L = 6 with a 1 code of six ones (l_1 = 0, the smallest low count). -/
def cfgV11 : ConfigRegs := { cfgV1 with patternLen := 6#32, tldMin := 0#32 }

theorem derive_v11 : cfgV11.derive = .ok ⟨3, 6, 3, 0, List.replicate 3 true ++ List.replicate 3 false,
    List.replicate 6 true, 6⟩ := by decide

/-- Vector V10b: L = 32, the largest pattern. -/
theorem derive_v10b : ({ cfgV1 with patternLen := 32#32 } : ConfigRegs).derive =
    .ok ⟨3, 6, 29, 26, List.replicate 3 true ++ List.replicate 29 false,
      List.replicate 6 true ++ List.replicate 26 false, 6⟩ := by decide

/-- Vector V12: 1 MHz, L = 2, T0H_MIN = 0, with an all-zero 0 code (h_0 = 0). -/
def cfgV12 : ConfigRegs :=
  { cfgV1 with bitRateHz := 1000000#32, patternLen := 2#32, t0hMin := 0#32 }

theorem derive_v12 : cfgV12.derive = .ok ⟨0, 1, 2, 1, [false, false], [true, false], 1⟩ := by decide

/-- Vector V4: 1 MHz, the first failure is 0x10. -/
def cfgV4 : ConfigRegs := { cfgV1 with bitRateHz := 1000000#32 }

theorem derive_v4 : cfgV4.derive = .error ⟨.bound false .high .belowMin, 200000#32⟩ := by decide

/-- W4's second case: 1.5 MHz, L = 4, T0H (200, 450, 500), the first failure is 0x11. -/
def cfgW4 : ConfigRegs :=
  { cfgV1 with bitRateHz := 1500000#32, patternLen := 4#32, t0hTyp := 450#32 }

theorem derive_w4 : cfgW4.derive = .error ⟨.bound false .high .aboveMax, 166667#32⟩ := by decide

theorem live_inv : live.Inv :=
  ⟨by decide, fun _ => ⟨derivationV1, by decide, by decide⟩, by decide, by decide, by decide, by decide,
    by decide, by decide⟩

theorem liveS3_inv : liveS3.Inv :=
  ⟨by decide, fun _ => ⟨derivationV1, by decide, by decide⟩, by decide, by decide, by decide, by decide,
    by decide, by decide⟩

theorem liveS9_inv : liveS9.Inv :=
  ⟨by decide, fun _ => ⟨derivationV1, by decide, by decide⟩, by decide, by decide, by decide, by decide,
    by decide, by decide⟩

theorem witness_DecodeFollowsOpcodeMap :
    decode 0x00030032#32 = .ok (.encodeFrame 3 true true) ∧
    (0x00030032#32 &&& (Instr.encodeFrame 0 false false).row.2 = (Instr.encodeFrame 0 false false).row.1) := by
  decide

/-- The least reserved OP, and the two kinds of a forbidden bit. -/
theorem witness_IllegalWordsCompleteWithoutEffect :
    ({ live with pending := some 0x00000006#32 } : State).pending = some 0x00000006#32 ∧
    decode 0x00000006#32 = .error (.illegal 0x6#4) ∧ decode 0x00000010#32 = .error (.illegal 0x0#4) ∧
    decode 0x00008002#32 = .error (.illegal 0x2#4) ∧
    ({ live with pending := some 0x00000042#32 } : State).pending = some 0x00000042#32 ∧
    ({ live with pending := some 0x0000000F#32 } : State).pending = some 0x0000000F#32 := by decide

theorem witness_DecodeOfEncode :
    (Instr.encodeFrame 65535 true false).WellFormed ∧ (Instr.encodeFrame 0 false false).WellFormed ∧
    Instr.softReset.WellFormed := by decide

theorem witness_EncodeOfDecode :
    decode 0xFFFF0012#32 = .ok (.encodeFrame 65535 true false) ∧ decode 0x00000005#32 = .ok .softReset := by
  decide

theorem witness_StepRunsDecodedCommand :
    (({ liveS3 with pending := some 0x00010002#32, turns := [.encoder, .host] } : State).nextTurn = .encoder ∧
      decode 0x00010002#32 = .ok (.encodeFrame 1 false false)) ∧
    (({ live with pending := some 0x00000042#32 } : State).nextTurn = .encoder ∧
      decode 0x00000042#32 = .error (.illegal 0x2#4)) ∧
    (({ live with pending := some 0x00000042#32 } : State).turns = []) := by decide

theorem witness_EachTurnMovesItsAgent : live.pending = none := by decide

theorem witness_MachineNeverStops :
    ({ live with pending := some 0x00000003#32 } : State).pending = some 0x00000003#32 := by decide

theorem witness_StepKeepsInvariant : liveS3.Inv ∧ ∃ t, step liveS3 = .next t := ⟨liveS3_inv, _, rfl⟩

theorem witness_ResetState :
    Reg.result ≠ .npixMax ∧ (0x040#21).toNat = ConfigReg.bitRateHz.offset ∧
    (0x074#21).toNat = ConfigReg.tllMin.offset := by decide

theorem witness_HardwareResetFromAnyState : Reg.config .tllMin ≠ .npixMax := by decide

theorem witness_NopOnlyReportsOk :
    live.busy = false ∧ ({ live with pending := some 0x00000000#32 } : State).pending = some 0#32 := by decide

theorem witness_ClearErrorClearsFlagsAndDetails :
    ({ live with pending := some 0x00000004#32 } : State).pending = some 4#32 := by decide

theorem witness_SoftResetResetsRegisters :
    (Reg.status ≠ .cmd ∧ Reg.status ≠ .npixMax ∧ Reg.status ≠ .result) ∧
    live.configured = true ∧
    (∃ t, step { live with pending := some 0x00000005#32 } = .next t ∧ t.configured = false) :=
  ⟨by decide, by decide, _, rfl, rfl⟩

/-- L = 32 with an all-ones 1 code (h_1 = 32), which needs TLD_MIN = 0. -/
def cfgOnes : ConfigRegs :=
  { cfgV1 with patternLen := 32#32, t1hTyp := 4000#32, tldMin := 0#32 }

theorem derive_ones : cfgOnes.derive = .ok ⟨3, 32, 29, 0, List.replicate 3 true ++ List.replicate 29 false,
    List.replicate 32 true, 6⟩ := by decide

theorem witness_ConfigureOutcomes :
    live.configured = true ∧
    (({ idle with cfg := cfgV4 } : State).configured = false ∧
      cfgV4.derive = .error ⟨.bound false .high .belowMin, 200000#32⟩) ∧
    (ready.configured = false ∧ ready.cfg.derive = .ok derivationV1) ∧
    idle.cfg.bitRateHz = 0#32 ∧
    (({ cfgV1 with patternLen := 33#32 } : ConfigRegs).bitRateHz ≠ 0#32 ∧
      ({ cfgV1 with patternLen := 33#32 } : ConfigRegs).patternLen = 33#32) ∧
    (∃ d, cfgOnes.derive = .ok d ∧ cfgOnes.patternLen = 32#32 ∧ d.h1 = 32) ∧
    (∃ d, ({ cfgV1 with tllMin := 0#32 } : ConfigRegs).derive = .ok d) ∧
    (({ cfgV12 with tldMin := 4000#32 } : ConfigRegs).highBitsOf false = 0 ∧
      ({ cfgV12 with tldMin := 4000#32 } : ConfigRegs).highMin false = 0 ∧
      ({ cfgV12 with tldMin := 4000#32 } : ConfigRegs).boundCheck false =
        some ⟨.bound false .low .belowMin, 2000000#32⟩) ∧
    (ready.cfg.bitRateHz = 8000000#32 ∧ ready.cfg.patternLen = 16#32 ∧ ready.cfg.t0hTyp = 350#32 ∧
      ready.cfg.t1hTyp = 700#32) :=
  ⟨by decide, by decide, by decide, by decide, by decide, ⟨_, derive_ones, by decide, by decide⟩,
    ⟨{ derivationV1 with latch := 0 }, by decide⟩, by decide, by decide⟩

theorem witness_ConfigureFailureLeavesUnconfigured :
    ({ idle with cfg := cfgW4 } : State).configured = false ∧
    cfgW4.derive = .error ⟨.bound false .high .aboveMax, 166667#32⟩ ∧
    (0x040#21).toNat = ConfigReg.bitRateHz.offset := by decide

/-- A failing row without an amount (V28), one with an amount (V4), and no failing row. -/
theorem witness_ConfigureReportsFirstFailedCheck :
    (idle.configured = false ∧ ∃ row, (checkTable idle.cfg).find? (fun r => r.fails) = some row ∧
      row.code = 0x01#8 ∧ row.miss = none) ∧
    (∃ row, (checkTable cfgV4).find? (fun r => r.fails) = some row ∧ row.code = 0x10#8 ∧
      row.miss = some 200000000) ∧
    (checkTable ready.cfg).find? (fun r => r.fails) = none :=
  ⟨⟨by decide, ⟨true, 0x01#8, none⟩, by decide⟩, ⟨⟨true, 0x10#8, some 200000000⟩, by decide⟩, by decide⟩

theorem witness_HighBitsRoundHalfUp : cfgV1.bitRateHz ≠ 0#32 := by decide

theorem witness_DerivedCountsFitPattern : ∃ d, cfgV11.derive = .ok d := ⟨_, derive_v11⟩

theorem witness_DerivedPatternsMeetWindows : ∃ d, cfgV12.derive = .ok d := ⟨_, derive_v12⟩

theorem witness_DerivedPatternsDiffer :
    ∃ d, ({ cfgV1 with patternLen := 32#32 } : ConfigRegs).derive = .ok d := ⟨_, derive_v10b⟩

/-- h_0 = 0 and h_0 = 1 with T0H_MIN > 0 (the two cases of W4), and T0H_MIN = 0 (V12). -/
theorem witness_TooCoarseRateFails :
    (cfgV4.bitRateHz ≠ 0#32 ∧ cfgV4.t0hTyp.toNat ≤ cfgV4.t0hMax.toNat ∧
      (cfgV4.t0hMax.toNat : ℚ) < cfgV4.bitPeriodNs ∧ 0 < cfgV4.t0hMin.toNat ∧ cfgV4.fieldCheck = none ∧
      cfgV4.highBitsOf false = 0) ∧
    (cfgW4.bitRateHz ≠ 0#32 ∧ cfgW4.t0hTyp.toNat ≤ cfgW4.t0hMax.toNat ∧
      (cfgW4.t0hMax.toNat : ℚ) < cfgW4.bitPeriodNs ∧ 0 < cfgW4.t0hMin.toNat ∧ cfgW4.fieldCheck = none ∧
      cfgW4.highBitsOf false = 1 ∧ cfgW4.t0hMin.toNat ≤ cfgW4.t0hMax.toNat) ∧
    (cfgV12.bitRateHz ≠ 0#32 ∧ cfgV12.t0hTyp.toNat ≤ cfgV12.t0hMax.toNat ∧
      (cfgV12.t0hMax.toNat : ℚ) < cfgV12.bitPeriodNs ∧ cfgV12.t0hMin = 0#32 ∧
      cfgV12.highBitsOf false = 0) := by
  refine ⟨⟨by decide, by decide, ?_, by decide, by decide, by decide⟩,
    ⟨by decide, by decide, ?_, by decide, by decide, by decide, by decide⟩,
    ⟨by decide, by decide, ?_, by decide, by decide⟩⟩ <;>
  norm_num [ConfigRegs.bitPeriodNs, Config.nsPerSecond, cfgV4, cfgW4, cfgV12, cfgV1]

/-- COUNT = 3 with another ORD3 and upper bits (V19, BUS14), and COUNT = 4. -/
theorem witness_DeriveIgnoresUnusedBits :
    ((0xFFFFE1F3#32).extractLsb' 0 4 = cfgV1.chanCfg.extractLsb' 0 4 ∧
      (0xFFFFE1F3#32).extractLsb' 8 6 = cfgV1.chanCfg.extractLsb' 8 6 ∧
      ¬ cfgV1.chanCfg.extractLsb' 0 4 = 0x4#4 ∧ (0xFFFFE1F3#32).extractLsb' 0 4 = 0x3#4) ∧
    ((0x0001E4F4#32).extractLsb' 0 4 = (0xE404#32).extractLsb' 0 4 ∧
      (0x0001E4F4#32).extractLsb' 8 6 = (0xE404#32).extractLsb' 8 6 ∧
      (0xE404#32).extractLsb' 0 4 = 0x4#4 ∧
      (0x0001E4F4#32).extractLsb' 14 2 = (0xE404#32).extractLsb' 14 2) := by decide

theorem witness_DerivedRegisterFields :
    ready.configured = false ∧ ready.cfg.derive = .ok derivationV1 ∧ 15 < ready.cfg.patternLen.toNat ∧
    ready.cfg.patternLen.toNat ≤ 16 := by decide

theorem witness_LatchIsLeastSufficient :
    ready.configured = false ∧ ready.cfg.derive = .ok derivationV1 ∧
    (∃ t, exec .configure ready = .next t ∧ 0 < t.derived.latchBytes.toNat) :=
  ⟨by decide, by decide, _, rfl, by decide⟩

/-- S9: every word before pixel 1 is legal. -/
theorem liveS9_before (i' k' : Nat) (hk : k' < liveS9.cfg.chanCount) (h : i' < 1 ∨ (i' = 1 ∧ k' < 0)) :
    0 ≤ (liveS9.pixWord i' (liveS9.cfg.ord k')).toInt ∧
      (liveS9.pixWord i' (liveS9.cfg.ord k')).toInt ≤ 255 := by
  have h0 : i' = 0 := by omega
  have all : ∀ k < liveS9.cfg.chanCount, 0 ≤ (liveS9.pixWord 0 (liveS9.cfg.ord k)).toInt ∧
      (liveS9.pixWord 0 (liveS9.cfg.ord k)).toInt ≤ 255 := by decide
  exact h0 ▸ all k' hk

/-- NOT_CONFIGURED; COUNT_ERROR at N = NPIX_MAX + 1; VALUE_ERROR (S9); and a legal frame. -/
theorem witness_EncodeFrameOutcomes :
    0xFFFF0032#32 &&& 0x0000FFCF#32 = 0x00000002#32 ∧
    ready.configured = false ∧
    (live.configured = true ∧ live.npixMax.toNat < 5) ∧
    (liveS9.configured = true ∧ 2 ≤ liveS9.npixMax.toNat ∧ 1 < 2 ∧ 0 < liveS9.cfg.chanCount ∧
      255 < (liveS9.pixWord 1 (liveS9.cfg.ord 0)).toInt ∧
      ∀ i' k', k' < liveS9.cfg.chanCount → (i' < 1 ∨ (i' = 1 ∧ k' < 0)) →
        0 ≤ (liveS9.pixWord i' (liveS9.cfg.ord k')).toInt ∧
          (liveS9.pixWord i' (liveS9.cfg.ord k')).toInt ≤ 255) ∧
    (liveS3.configured = true ∧ 1 ≤ liveS3.npixMax.toNat ∧ ∀ i k, i < 1 → k < liveS3.cfg.chanCount →
      0 ≤ (liveS3.pixWord i (liveS3.cfg.ord k)).toInt ∧
        (liveS3.pixWord i (liveS3.cfg.ord k)).toInt ≤ 255) := by
  refine ⟨by decide, by decide, by decide,
    ⟨by decide, by decide, by decide, by decide, by decide, liveS9_before⟩, by decide, by decide, ?_⟩
  have h : ∀ i < 1, ∀ k < liveS3.cfg.chanCount, 0 ≤ (liveS3.pixWord i (liveS3.cfg.ord k)).toInt ∧
      (liveS3.pixWord i (liveS3.cfg.ord k)).toInt ≤ 255 := by decide
  exact fun i k hi hk => h i hi k hk

/-- S9: the word at pixel 1, order position 0. -/
theorem witness_ValueErrorNamesFirstIllegalWord :
    liveS9.configured = true ∧ 2 ≤ liveS9.npixMax.toNat ∧ 1 < 2 ∧ 0 < liveS9.cfg.chanCount ∧
    255 < (liveS9.pixWord 1 (liveS9.cfg.ord 0)).toInt ∧
    ∀ i' k', k' < liveS9.cfg.chanCount → (i' < 1 ∨ (i' = 1 ∧ k' < 0)) →
      0 ≤ (liveS9.pixWord i' (liveS9.cfg.ord k')).toInt ∧
        (liveS9.pixWord i' (liveS9.cfg.ord k')).toInt ≤ 255 :=
  ⟨by decide, by decide, by decide, by decide, by decide, liveS9_before⟩

theorem witness_FrameSizeLaw :
    ∃ t, exec (.encodeFrame 1 true true) liveS3 = .next t ∧ t.resultCode = .ok := ⟨_, rfl, rfl⟩

/-- The last slot's last bit, and two states that agree on one channel's byte only. -/
theorem witness_FrameBitPlacement :
    (0 < 1 ∧ 2 < liveS3.cfg.chanCount ∧ 0 < 8 ∧ 15 < liveS3.cfg.patternLen.toNat) ∧
    ((setPixel live 0 0x80#32 0x55#32 0#32).cfg = liveS3.cfg ∧
      (setPixel live 0 0x80#32 0x55#32 0#32).derived = liveS3.derived ∧
      channelByte ((setPixel live 0 0x80#32 0x55#32 0#32).pixWord 0 (liveS3.cfg.ord 1)) =
        channelByte (liveS3.pixWord 0 (liveS3.cfg.ord 1))) := by decide

theorem witness_EmptyFrameIsNoError : live.configured = true := by decide

/-- liveS3 with another word the frame does not read, other bytes in OUT and a sticky flag. -/
def liveS3b : State := { liveS3.storePix 0 3#2 0x1234#32 with out := [7#8], lockViolation := true }

/-- A fact about every channel of pixel 0, from the three channels of config V1. -/
theorem pixel0_of_three {p : Nat → BitVec 2 → Prop} (h : ∀ k < 3, p 0 (BitVec.ofNat 2 k)) (i : Nat)
    (c : BitVec 2) (hi : i < 1) (hc : c.toNat < 3) : p i c := by
  have h0 : i = 0 := by omega
  have := h c.toNat hc
  rw [BitVec.ofNat_toNat, BitVec.setWidth_eq] at this
  exact h0 ▸ this

theorem liveS3_chanCount : liveS3.cfg.chanCount = 3 := by decide

theorem witness_EncodeFrameIsDeterministic :
    liveS3.Inv ∧ liveS3b.configured = liveS3.configured ∧ liveS3b.cfg = liveS3.cfg ∧
    liveS3b.derived = liveS3.derived ∧ liveS3b.npixMax = liveS3.npixMax ∧
    ∀ (i : Nat) (c : BitVec 2), i < 1 → c.toNat < liveS3.cfg.chanCount →
      liveS3b.pixWord i c = liveS3.pixWord i c := by
  refine ⟨liveS3_inv, by decide, by decide, by decide, by decide, ?_⟩
  rw [liveS3_chanCount]
  exact pixel0_of_three (p := fun i c => liveS3b.pixWord i c = liveS3.pixWord i c) (by decide)

theorem witness_FrameThenLatchEqualsPost :
    ∃ t, exec (.encodeFrame 1 true false) liveS3 = .next t ∧ t.resultCode = .ok := ⟨_, rfl, rfl⟩

theorem witness_FrameRoundTrip :
    liveS3.Inv ∧ liveS3.configured = true ∧ 1 ≤ liveS3.npixMax.toNat ∧
    ∀ (i : Nat) (c : BitVec 2), i < 1 → c.toNat < liveS3.cfg.chanCount →
      channelLegal (liveS3.pixWord i c) = true := by
  refine ⟨liveS3_inv, by decide, by decide, ?_⟩
  rw [liveS3_chanCount]
  exact pixel0_of_three (p := fun i c => channelLegal (liveS3.pixWord i c) = true) (by decide)

theorem witness_GenerateLatchEmitsZeros : live.configured = true ∧ ready.configured = false := by decide

/-- The last logical bit of S3 is a 1, whose slot has a high bit; pixel 0 = 0 ends in a 0. -/
theorem witness_LatchLowRunAfterFrame :
    (liveS3.Inv ∧ 0 < 1 ∧ (∃ t, exec (.encodeFrame 1 false true) liveS3 = .next t ∧ t.resultCode = .ok) ∧
      (liveS3.pixWord 0 (liveS3.cfg.ord 2)).getLsbD 0 = true ∧ 0 < liveS3.h1Field) ∧
    (liveS9.Inv ∧ (∃ t, exec (.encodeFrame 1 true true) liveS9 = .next t ∧ t.resultCode = .ok) ∧
      (liveS9.pixWord 0 (liveS9.cfg.ord 2)).getLsbD 0 = false ∧ 0 < liveS9.h0Field) :=
  ⟨⟨liveS3_inv, by decide, ⟨_, rfl, rfl⟩, by decide, by decide⟩, liveS9_inv, ⟨_, rfl, rfl⟩, by decide,
    by decide⟩

theorem witness_EmittedTimeIsFramePlusLatches :
    ∃ t, exec (.encodeFrame 1 false true) liveS3 = .next t ∧ t.resultCode = .ok := ⟨_, rfl, rfl⟩

theorem witness_CommandErrorsWriteResultOnly :
    ready.configured = false ∧ live.configured = true ∧ live.npixMax.toNat < 5 ∧ ¬ live.npixMax.toNat < 4 := by
  decide

theorem witness_FailedCommandHasNoPartialEffect :
    (liveS9.Inv ∧ ∃ t, exec (.encodeFrame 2 true true) liveS9 = .next t ∧ t.resultCode ≠ .ok) ∧
    (({ live with pending := some 0x00000006#32 } : State).pending = some 0x00000006#32 ∧
      decode 0x00000006#32 = .error (.illegal 0x6#4)) :=
  ⟨⟨liveS9_inv, _, rfl, by decide⟩, by decide⟩

theorem witness_ErrorPriority :
    ({ live with pending := some 0x00000042#32 } : State).pending = some 0x00000042#32 ∧
    ∀ i, decode 0x00000042#32 ≠ .ok i := by
  have h : decode 0x00000042#32 = .error (.illegal 0x2#4) := by decide
  exact ⟨by decide, fun i => by rw [h]; exact fun h => by cases h⟩

theorem witness_CommandFrame :
    (∃ t, exec .configure ready = .next t) ∧ (∃ t, exec (.encodeFrame 1 true true) liveS3 = .next t) ∧
    (∃ t, exec .nop liveS3 = .next t) := ⟨⟨_, rfl⟩, ⟨_, rfl⟩, ⟨_, rfl⟩⟩

/-- One address for each case of rule R63, at the ends of the ranges. -/
theorem witness_HostWriteCases :
    ({ live with pending := some 0#32 } : State).busy = true ∧ live.busy = false ∧
    (0x003#21).toNat / 4 * 4 = 0x000 ∧
    (0x040#21).toNat / 4 * 4 = ConfigReg.bitRateHz.offset ∧
    (0x077#21).toNat / 4 * 4 = ConfigReg.tllMin.offset ∧
    (3 < live.npixMax.toNat ∧ (0x10003F#21).toNat / 4 * 4 = 0x100000 + 16 * 3 + 4 * (3#2).toNat) ∧
    (0x004#21).toNat / 4 * 4 = 4 ∧ (0x03F#21).toNat / 4 * 4 < 0x040 ∧ (0x078#21).toNat / 4 * 4 = 0x078 ∧
    (0x0FFFFF#21).toNat / 4 * 4 < 0x100000 ∧
    0x100000 + 16 * live.npixMax.toNat ≤ (0x100040#21).toNat / 4 * 4 := by decide

theorem witness_HostReadCases :
    (0x030#21).toNat / 4 * 4 = Reg.npixMax.offset ∧ (0x002#21).toNat / 4 * 4 = 0x000 ∧
    (0 < live.npixMax.toNat ∧ (0x100000#21).toNat / 4 * 4 = 0x100000 + 16 * 0 + 4 * (0#2).toNat) ∧
    (0x034#21).toNat / 4 * 4 = 0x034 ∧ (0x03F#21).toNat / 4 * 4 < 0x040 ∧
    (0x078#21).toNat / 4 * 4 = 0x078 ∧ (0x0FFFFF#21).toNat / 4 * 4 < 0x100000 ∧
    0x100000 + 16 * live.npixMax.toNat ≤ (0x1FFFFF#21).toNat / 4 * 4 := by decide

theorem witness_PixelWriteReadsBack :
    live.busy = false ∧ 0x100000 ≤ (0x10003D#21).toNat ∧
    (0x10003D#21).toNat < 0x100000 + 16 * live.npixMax.toNat ∧
    (0x10003F#21).toNat / 4 = (0x10003D#21).toNat / 4 ∧ (0x100038#21).toNat / 4 ≠ (0x10003D#21).toNat / 4 := by
  decide

theorem witness_ConfigurationLock :
    (live.busy = false ∧ live.configured = true ∧ (0x074#21).toNat / 4 * 4 = ConfigReg.tllMin.offset) ∧
    (ready.busy = false ∧ ready.configured = false ∧ Reg.status ≠ .config .tllMin) ∧
    (∃ t, step { live with pending := some 0x00000005#32 } = .next t ∧ t.configured = false) ∧
    3 < live.npixMax.toNat :=
  ⟨by decide, by decide, ⟨_, rfl, rfl⟩, by decide⟩

/-- Two configured states with one configuration; and a configured state whose step is no reset. -/
theorem witness_DerivedRegistersStayWhileConfigured :
    (live.Inv ∧ liveS3.Inv ∧ live.configured = true ∧ liveS3.configured = true ∧ liveS3.cfg = live.cfg) ∧
    (∃ t, step live = .next t) ∧ live.nextTurn ≠ .hardwareReset ∧
    ¬ (live.nextTurn = .encoder ∧ live.pending = some 0x00000005#32) :=
  ⟨⟨live_inv, liveS3_inv, by decide, by decide, by decide⟩, ⟨_, rfl⟩, by decide, by decide⟩

theorem witness_OutputIsAppendOnly :
    ((∃ t, step { live with pending := some 0x00000003#32 } = .next t ∧ t.out ≠ []) ∧
      ({ live with pending := some 0x00000003#32 } : State).nextTurn ≠ .hardwareReset) ∧
    (∃ t, step { live with turns := [.hardwareReset] } = .next t) ∧
    ({ live with turns := [.hardwareReset] } : State).nextTurn = .hardwareReset :=
  ⟨⟨⟨_, rfl, by decide⟩, by decide⟩, ⟨_, rfl⟩, by decide⟩

theorem witness_NothingEmittedUnconfigured :
    let s : State := { ready with pending := some 0x00000003#32 }
    s.configured = false ∧ s.nextTurn ≠ .hardwareReset ∧ ∃ t, step s = .next t :=
  ⟨by decide, by decide, _, rfl⟩

theorem witness_NpixMaxNeverChanges : ∃ t, step live = .next t := ⟨_, rfl⟩

/-- A Host write to pixel memory (the second case), and a command (the first). -/
theorem witness_PixelMemoryChangesByHostWritesOnly :
    ((∃ t, step (live.loadProgram [.wr 0x10003C#21 7#32]) = .next t ∧ t.pixWord 3 3#2 = 7#32) ∧
      (live.loadProgram [.wr 0x10003C#21 7#32]).nextTurn ≠ .hardwareReset) ∧
    (∃ t, step { liveS3 with pending := some 0x00000005#32 } = .next t) :=
  ⟨⟨⟨_, rfl, by decide⟩, by decide⟩, _, rfl⟩

/-- A pending GENERATE_LATCH with an input of turns. -/
def latchPending (ts : List Turn) : State := { live with pending := some 0x00000003#32, turns := ts }

theorem witness_PendingCommandIsNeverReplaced :
    ((∃ t, step (latchPending [.host]) = .next t) ∧ (latchPending [.host]).nextTurn = .host) ∧
    ((∃ t, step (latchPending []) = .next t) ∧ (latchPending []).nextTurn = .encoder) ∧
    ((∃ t, step (latchPending [.hardwareReset]) = .next t) ∧
      (latchPending [.hardwareReset]).nextTurn = .hardwareReset) :=
  ⟨⟨⟨_, rfl⟩, by decide⟩, ⟨⟨_, rfl⟩, by decide⟩, ⟨_, rfl⟩, by decide⟩

theorem witness_PendingCommandIsIsolatedFromHost :
    ({ liveS3 with pending := some 0x00010002#32 } : State).pending = some 0x00010002#32 := by decide

theorem witness_EndedRunKeepsObservation :
    let s : State := { live with host := ⟨[], 0, some .pass⟩ }
    s.RunEnded ∧ s.nextTurn ≠ .hardwareReset ∧ ∃ t, step s = .next t :=
  ⟨⟨by decide, by decide⟩, by decide, _, rfl⟩

theorem witness_HostStatementEffects :
    (live.host.verdict = none ∧ live.host.program.length ≤ live.host.hpc) ∧
    ((live.loadProgram [.halt]).host.verdict = none ∧
      (live.loadProgram [.halt]).host.program[(live.loadProgram [.halt]).host.hpc]? = some .halt) ∧
    ({ live with host := ⟨[], 0, some .fail⟩ } : State).host.verdict ≠ none ∧
    (("end", 1) ∈ labelTable 0 [⟨none, some .halt⟩, ⟨some "end", none⟩] ∧
      programSize [⟨none, some .halt⟩, ⟨some "end", none⟩] ≤ 1) ∧
    [("go", 0)].lookup "nowhere" = none ∧ [("go", 0)].lookup "go" = some 0 ∧ 4294967295 < 2 ^ 32 := by decide

theorem witness_CommandMnemonicWords : 65535 ≤ 65535 ∧ 65535 < 65536 := by decide

theorem witness_OutOfRangeValuesAreAssemblyErrors :
    2 ^ 32 ≤ 4294967296 ∧ ((2 : Int) ^ 32 ≤ 4294967296) := by decide

theorem witness_PseudoInstructionExpansions :
    4294967295 < 2 ^ 32 ∧ (-1 : Int) < 2 ^ 32 ∧
    (SourceStmt.command .nop).expand [] 0 = .ok [.wr 0x000#21 0#32] := by decide

end Sys2Proof.Tests
end

section
/-! PROOFS. The family 10_state: the configuration lock (rule R37), the derived registers (rule R51), the
output stream (rule R42) and NPIX_MAX (rule R45). First what each shared operation keeps, then the
obligations. -/

namespace Sys2Proof.Machine

/-! ### The register file -/

/-- A configuration register reads back as written, and the other thirteen read as before. -/
theorem ConfigRegs.get_set (c : ConfigRegs) (r r' : ConfigReg) (w : Word) :
    (c.set r w).get r' = if r' = r then w else c.get r' := by
  cases r <;> cases r' <;> rfl

theorem readReg_setCfg_same (s : State) (r : ConfigReg) (w : Word) :
    ({ s with cfg := s.cfg.set r w } : State).readReg (.config r) = w := by
  simp [State.readReg, ConfigRegs.get_set]

theorem readReg_setCfg_other (s : State) {r : ConfigReg} {r' : Reg} (w : Word) (h : r' ≠ .config r) :
    ({ s with cfg := s.cfg.set r w } : State).readReg r' = s.readReg r' := by
  cases r' with
  | config q =>
    have hq : q ≠ r := fun e => h (congrArg Reg.config e)
    simp [State.readReg, ConfigRegs.get_set, hq]
  | _ => rfl

/-- No register shows OUT. -/
theorem readReg_setOut (s : State) (bytes : List Byte) (r : Reg) :
    ({ s with out := bytes } : State).readReg r = s.readReg r := by
  cases r <;> rfl

theorem npixMaxWord_toNat (s : State) : s.npixMaxWord.toNat = s.npixMax.toNat :=
  BitVec.toNat_setWidth_of_le (by decide)

/-! ### A Host write by its address -/

theorem memWrite_configReg {s : State} {r : ConfigReg} {addr : BusAddr} (hb : s.busy = false)
    (ha : wordAddr addr = r.offset) (w : Word) : s.memWrite addr w = s.writeConfig r w := by
  have ht : busTarget s.npixMax.toNat addr = .reg (.config r) := busTarget_reg ha
  simp [State.memWrite, hb, ht]

theorem memWrite_pix {s : State} {i : Nat} {c : BitVec 2} {addr : BusAddr} (hb : s.busy = false)
    (hi : i < s.npixMax.toNat) (ha : wordAddr addr = pixAddr i c) (w : Word) :
    s.memWrite addr w = s.storePix i c w := by
  simp [State.memWrite, hb, busTarget_pix hi ha]

/-- Every pixel word that NPIX_MAX admits has a bus address of 21 bits (rule R61). -/
theorem wordAddr_ofNat_pixAddr {i : Nat} (hi : i < 65536) (c : BitVec 2) :
    wordAddr (BitVec.ofNat 21 (pixAddr i c)) = pixAddr i c := by
  have hc := c.isLt
  simp only [wordAddr_eq, BitVec.toNat_ofNat, pixAddr, Config.pixBase]
  omega

/-! ### What the Host keeps -/

/-- `t` has the configuration of `s`: CONFIGURED, the configuration registers and the derived registers. -/
structure KeepsConfiguration (s t : State) : Prop where
  configured_eq : t.configured = s.configured
  cfg_eq : t.cfg = s.cfg
  derived_eq : t.derived = s.derived

/-- What no Host access changes: OUT, NPIX_MAX and, while configured, the configuration. -/
structure HostKeeps (s t : State) : Prop where
  out_eq : t.out = s.out
  npixMax_eq : t.npixMax = s.npixMax
  configuration : s.configured = true → KeepsConfiguration s t

theorem memWrite_keeps (s : State) (addr : BusAddr) (w : Word) : HostKeeps s (s.memWrite addr w) := by
  rcases memWrite_cases s addr w with
    ⟨-, h⟩ | ⟨-, -, h⟩ | ⟨-, -, -, h⟩ | ⟨-, hc, r, -, h⟩ | ⟨-, i, c, -, -, h⟩ | ⟨-, h⟩ <;> rw [h]
  · exact ⟨rfl, rfl, fun _ => ⟨rfl, rfl, rfl⟩⟩
  · exact ⟨rfl, rfl, fun _ => ⟨rfl, rfl, rfl⟩⟩
  · exact ⟨rfl, rfl, fun _ => ⟨rfl, rfl, rfl⟩⟩
  · exact ⟨rfl, rfl, fun hc' => absurd (hc.symm.trans hc') (by decide)⟩
  · exact ⟨rfl, rfl, fun _ => ⟨rfl, rfl, rfl⟩⟩
  · exact ⟨rfl, rfl, fun _ => ⟨rfl, rfl, rfl⟩⟩

theorem hostTurn_keeps (s : State) : HostKeeps s s.hostTurn := by
  rcases hostTurn_cases s with ⟨a, h⟩ | ⟨addr, w, a, -, h⟩
  · rw [h]; exact ⟨rfl, rfl, fun _ => ⟨rfl, rfl, rfl⟩⟩
  · obtain ⟨hout, hnpix, hcfg⟩ := memWrite_keeps s addr w
    rw [h]
    exact ⟨hout, hnpix, fun hc => ⟨(hcfg hc).configured_eq, (hcfg hc).cfg_eq, (hcfg hc).derived_eq⟩⟩

/-! ### What the Encoder keeps -/

/-- A word that decodes to a command selects the command's row of the opcode map (rule R83). -/
theorem selectedBy_of_decode {w : Word} {i : Instr} (h : decode w = .ok i) : i.selectedBy w := by
  unfold decode at h
  split_ifs at h with h0 h1 h2 h3 h4 h5 <;> cases h
  · subst h0; decide
  · subst h1; decide
  · exact h2
  · subst h3; decide
  · subst h4; decide
  · subst h5; decide

/-- The rows other than ENCODE_FRAME's have the full mask: one word selects them. -/
theorem eq_of_and_fullMask {w m : Word} (h : w &&& 0xFFFFFFFF#32 = m) : w = m := by
  rwa [show 0xFFFFFFFF#32 = BitVec.allOnes 32 from rfl, BitVec.and_allOnes] at h

theorem finish_keepsConfiguration (s : State) (code : ResultCode) (op : BitVec 4) (bytes : List Byte) :
    KeepsConfiguration s (s.finish code op bytes) := ⟨rfl, rfl, rfl⟩

/-- While configured no command but SOFT_RESET changes the configuration (rules R37 and R51). -/
theorem exec_keepsConfiguration {i : Instr} {s : State} (hc : s.configured = true) (hi : i ≠ .softReset) :
    ∃ t, exec i s = .next t ∧ KeepsConfiguration s t := by
  cases i with
  | nop => exact ⟨_, rfl, finish_keepsConfiguration s _ _ _⟩
  | configure =>
    rcases execConfigure_cases s with ⟨-, h⟩ | ⟨f, hc', -, -⟩ | ⟨d, hc', -, -⟩
    · exact ⟨_, h, finish_keepsConfiguration s _ _ _⟩
    all_goals exact absurd (hc'.symm.trans hc) (by decide)
  | encodeFrame n pre post =>
    rcases execEncodeFrame_cases n pre post s with ⟨-, h⟩ | ⟨-, -, h⟩ | ⟨p, -, -, -, h⟩ | ⟨-, -, -, h⟩
    · exact ⟨_, h, finish_keepsConfiguration s _ _ _⟩
    · exact ⟨_, h, finish_keepsConfiguration s _ _ _⟩
    · exact ⟨_, h, rfl, rfl, rfl⟩
    · exact ⟨_, h, finish_keepsConfiguration s _ _ _⟩
  | generateLatch =>
    rcases execGenerateLatch_cases s with ⟨-, h⟩ | ⟨-, h⟩ <;>
      exact ⟨_, h, finish_keepsConfiguration s _ _ _⟩
  | clearError => exact ⟨_, rfl, rfl, rfl, rfl⟩
  | softReset => exact absurd rfl hi

theorem encoderTurn_keepsConfiguration {s : State} (hc : s.configured = true)
    (hw : s.pending ≠ some 0x00000005#32) :
    ∃ t, s.encoderTurn = .next t ∧ KeepsConfiguration s t := by
  rcases encoderTurn_cases s with ⟨-, h⟩ | ⟨w, i, hp, hd, h⟩ | ⟨w, op, -, -, h⟩
  · exact ⟨s, h, rfl, rfl, rfl⟩
  · have hi : i ≠ .softReset := by
      rintro rfl
      exact hw (hp.trans (congrArg some (eq_of_and_fullMask (selectedBy_of_decode hd))))
    rw [h]
    exact exec_keepsConfiguration hc hi
  · exact ⟨_, h, finish_keepsConfiguration s _ _ _⟩

/-- An Encoder turn keeps NPIX_MAX and extends OUT, by no byte unless a configured block runs a pending
ENCODE_FRAME or GENERATE_LATCH (rules R42 and R45). -/
theorem encoderTurn_answers (s : State) :
    ∃ t bytes, s.encoderTurn = .next t ∧ t.npixMax = s.npixMax ∧ t.out = s.out ++ bytes ∧
      (bytes ≠ [] → s.configured = true ∧ ∃ w, s.pending = some w ∧
        (w &&& 0x0000FFCF#32 = 0x00000002#32 ∨ w = 0x00000003#32)) := by
  rcases encoderTurn_cases s with ⟨-, h⟩ | ⟨w, i, hp, hd, h⟩ | ⟨w, op, -, -, h⟩
  · exact ⟨s, [], h, rfl, by simp, by simp⟩
  · obtain ⟨t, bytes, ht, -, -, -, -, hnpix, -, -, hout, -, hbytes⟩ := exec_answers i s
    refine ⟨t, bytes, h.trans ht, hnpix, hout, fun hne => ?_⟩
    obtain ⟨hc, hi⟩ := hbytes hne
    refine ⟨hc, w, hp, ?_⟩
    have hsel := selectedBy_of_decode hd
    rcases hi with rfl | ⟨n, pre, post, rfl⟩
    · exact .inr (eq_of_and_fullMask hsel)
    · exact .inl hsel
  · exact ⟨_, [], h, rfl, rfl, by simp⟩

/-! ### What a step keeps -/

/-- The state a step answers, by the turn taken (rule R70). -/
theorem step_next_cases {s t : State} (h : step s = .next t) :
    (s.nextTurn = .host ∧ t = s.popTurn.hostTurn) ∨
    (s.nextTurn = .encoder ∧ s.popTurn.encoderTurn = .next t) ∨
    (s.nextTurn = .hardwareReset ∧ t = s.popTurn.hardwareReset) := by
  rcases step_cases s with ⟨hn, h'⟩ | ⟨hn, h'⟩ | ⟨hn, h'⟩ <;> rw [h] at h'
  · exact .inl ⟨hn, Host.Outcome.next.inj h'⟩
  · exact .inr (.inl ⟨hn, h'.symm⟩)
  · exact .inr (.inr ⟨hn, Host.Outcome.next.inj h'⟩)

theorem step_npixMax {s t : State} (h : step s = .next t) : t.npixMax = s.npixMax := by
  rcases step_next_cases h with ⟨-, rfl⟩ | ⟨-, h⟩ | ⟨-, rfl⟩
  · exact (hostTurn_keeps s.popTurn).npixMax_eq
  · obtain ⟨t', bytes, h', hnpix, -, -⟩ := encoderTurn_answers s.popTurn
    cases h'.symm.trans h
    exact hnpix
  · rfl

/-- From a configured state only hardware reset and the step of SOFT_RESET change the configuration. -/
theorem step_keepsConfiguration {s t : State} (hc : s.configured = true) (h : step s = .next t)
    (hreset : s.nextTurn ≠ .hardwareReset)
    (hsoft : ¬ (s.nextTurn = .encoder ∧ s.pending = some 0x00000005#32)) :
    KeepsConfiguration s t := by
  rcases step_next_cases h with ⟨-, rfl⟩ | ⟨hn, h⟩ | ⟨hn, -⟩
  · obtain ⟨h1, h2, h3⟩ := (hostTurn_keeps s.popTurn).configuration hc
    exact ⟨h1, h2, h3⟩
  · obtain ⟨t', h', h1, h2, h3⟩ :=
      encoderTurn_keepsConfiguration (s := s.popTurn) hc fun hp => hsoft ⟨hn, hp⟩
    cases h'.symm.trans h
    exact ⟨h1, h2, h3⟩
  · exact absurd hn hreset

/-- A step other than hardware reset extends OUT (rule R42). -/
theorem step_extends_out {s t : State} (h : step s = .next t) (hreset : s.nextTurn ≠ .hardwareReset) :
    ∃ bytes, t.out = s.out ++ bytes ∧
      (bytes ≠ [] → s.nextTurn = .encoder ∧ s.configured = true ∧ ∃ w, s.pending = some w ∧
        (w &&& 0x0000FFCF#32 = 0x00000002#32 ∨ w = 0x00000003#32)) := by
  rcases step_next_cases h with ⟨-, rfl⟩ | ⟨hn, h⟩ | ⟨hn, -⟩
  · exact ⟨[], by rw [(hostTurn_keeps s.popTurn).out_eq]; simp, by simp⟩
  · obtain ⟨t', bytes, h', -, hout, hbytes⟩ := encoderTurn_answers s.popTurn
    cases h'.symm.trans h
    exact ⟨bytes, hout, fun hne => ⟨hn, hbytes hne⟩⟩
  · exact absurd hn hreset

theorem step_out_of_hardwareReset {s t : State} (h : step s = .next t)
    (hn : s.nextTurn = .hardwareReset) : t.out = [] := by
  rcases step_next_cases h with ⟨hn', -⟩ | ⟨hn', -⟩ | ⟨-, rfl⟩
  · exact absurd (hn.symm.trans hn') (by decide)
  · exact absurd (hn.symm.trans hn') (by decide)
  · rfl

/-- A Host read has no view of OUT (rule R42). -/
theorem memRead_setOut (s : State) (bytes : List Byte) (addr : BusAddr) :
    ({ s with out := bytes } : State).memRead addr = s.memRead addr := by
  unfold State.memRead
  cases busTarget s.npixMax.toNat addr with
  | reg r => exact readReg_setOut s bytes r
  | pix i c => rfl
  | undefined => rfl

/-! ### The obligations -/

/-- Settles O47: a write goes to the register of its address, and a step that unlocks is no step that keeps
the configuration. -/
theorem configurationLock : Obligations.ConfigurationLock := by
  refine ⟨fun s r addr w hb ha => ?_, fun s t hc h ht => ?_, fun s i c w hb hi => ?_⟩
  · rw [memWrite_configReg hb ((wordAddr_eq addr).trans ha)]
    refine ⟨fun hc => by simp [State.writeConfig, hc], fun hc => ?_⟩
    have hstore : s.writeConfig r w = { s with cfg := s.cfg.set r w } := by
      simp [State.writeConfig, hc]
    rw [hstore]
    exact ⟨readReg_setCfg_same s r w, fun r' hr => readReg_setCfg_other s w hr⟩
  · by_contra hcon
    obtain ⟨hreset, hsoft⟩ := not_or.mp hcon
    have hkeep := (step_keepsConfiguration hc h hreset hsoft).configured_eq
    rw [ht, hc] at hkeep
    cases hkeep
  · have ha := wordAddr_ofNat_pixAddr (hi.trans s.npixMax.isLt) c
    change (s.memWrite (BitVec.ofNat 21 (pixAddr i c)) w).pixWord i c = w
    rw [memWrite_pix hb hi ha, pixWord_storePix, if_pos ⟨rfl, rfl⟩]

/-- Settles O48: under the invariant the derived registers are the derivation of the configuration registers,
which a configured block keeps. -/
theorem derivedRegistersStayWhileConfigured : Obligations.DerivedRegistersStayWhileConfigured := by
  refine ⟨fun s u hs hu hsc huc hcfg => ?_, fun s t hc h hreset hsoft => ?_⟩
  · obtain ⟨d, hd, hsd⟩ := hs.configured_derived hsc
    obtain ⟨e, he, hue⟩ := hu.configured_derived huc
    rw [hcfg, hd] at he
    cases he
    rw [hsd, hue]
  · have hkeep := step_keepsConfiguration hc h hreset hsoft
    exact ⟨hkeep.configured_eq.trans hc, hkeep.cfg_eq, hkeep.derived_eq⟩

/-- Settles O49, turn by turn. -/
theorem outputIsAppendOnly : Obligations.OutputIsAppendOnly :=
  ⟨fun _ _ h hreset => step_extends_out h hreset, fun _ _ h hn => step_out_of_hardwareReset h hn,
    memRead_setOut⟩

/-- Settles O51: every turn keeps the parameter, which its register widens with zeros. -/
theorem npixMaxNeverChanges : Obligations.NpixMaxNeverChanges :=
  ⟨fun _ _ h => ⟨step_npixMax h, congrArg (BitVec.setWidth 32) (step_npixMax h)⟩, npixMaxWord_toNat⟩

end Sys2Proof.Machine
end

section
/-! PROOFS. The family 20_memory: what a Host write does (rule R63) and what a Host read answers (rule R62),
by the address of the word accessed. First where the offsets and the pixel words lie, then one lemma per case
of an access, then the obligations. -/

namespace Sys2Proof.Machine

/-! ### Where the registers and the pixel words lie -/

theorem ConfigReg.offset_ge (r : ConfigReg) : 0x040 ≤ r.offset := by cases r <;> decide

/-- The words 0x034 to 0x03C between NPIX_MAX and BIT_RATE_HZ hold no register (rule R50). -/
theorem Reg.offset_gap (r : Reg) : r.offset < 0x034 ∨ 0x040 ≤ r.offset := by
  cases r with
  | config r => exact .inr r.offset_ge
  | _ => decide

theorem pixAddr_ge (i : Nat) (c : BitVec 2) : 0x100000 ≤ pixAddr i c := by
  simp only [pixAddr, Config.pixBase]
  omega

/-- The words of pixel memory end before `0x100000 + 16 · n` (rule R40). -/
theorem pixAddr_lt {i n : Nat} (hi : i < n) (c : BitVec 2) : pixAddr i c < 0x100000 + 16 * n := by
  have hc := c.isLt
  simp only [pixAddr, Config.pixBase]
  omega

/-! ### A Host write by its address -/

theorem memWrite_cmd {s : State} {addr : BusAddr} (hb : s.busy = false) (ha : wordAddr addr = 0)
    (w : Word) : s.memWrite addr w = { s with pending := some w } := by
  have ht : busTarget s.npixMax.toNat addr = .reg .cmd := busTarget_reg ha
  simp [State.memWrite, hb, ht]

/-- A write to a word that is neither CMD nor a configuration register nor a pixel word is ignored
(rule R63, step 5). -/
theorem memWrite_ignored {s : State} {addr : BusAddr} (hb : s.busy = false) (hcmd : wordAddr addr ≠ 0)
    (hcfg : ∀ r : ConfigReg, wordAddr addr ≠ r.offset)
    (hpix : ∀ i c, i < s.npixMax.toNat → wordAddr addr ≠ pixAddr i c) (w : Word) :
    s.memWrite addr w = s := by
  rcases memWrite_cases s addr w with
    ⟨hbusy, -⟩ | ⟨-, h0, -⟩ | ⟨-, -, ⟨r, hr⟩, -⟩ | ⟨-, -, r, hr, -⟩ | ⟨-, i, c, hi, ha, -⟩ | ⟨-, h⟩
  · exact absurd (hb.symm.trans hbusy) (by decide)
  · exact absurd h0 hcmd
  · exact absurd hr (hcfg r)
  · exact absurd hr (hcfg r)
  · exact absurd ha (hpix i c hi)
  · exact h

/-! ### A Host read by its address -/

theorem memRead_reg {s : State} {addr : BusAddr} {r : Reg} (ha : wordAddr addr = r.offset) :
    s.memRead addr = s.readReg r := by
  simp [State.memRead, busTarget_reg ha]

theorem memRead_pix {s : State} {addr : BusAddr} {i : Nat} {c : BitVec 2} (hi : i < s.npixMax.toNat)
    (ha : wordAddr addr = pixAddr i c) : s.memRead addr = s.pixWord i c := by
  simp [State.memRead, busTarget_pix hi ha]

theorem memRead_undefined {s : State} {addr : BusAddr} (hreg : ∀ r : Reg, r.offset ≠ wordAddr addr)
    (hpix : wordAddr addr < Config.pixBase ∨ Config.pixBase + 16 * s.npixMax.toNat ≤ wordAddr addr) :
    s.memRead addr = 0#32 := by
  simp [State.memRead, busTarget_undefined hreg hpix]

/-! ### The obligations -/

/-- Settles O43: one write lemma per case; the last range meets neither the configuration registers nor the
pixel words. -/
theorem hostWriteCases : Obligations.HostWriteCases := by
  intro s addr w
  simp only [← wordAddr_eq]
  refine ⟨fun hb => memWrite_busy hb addr w, fun hb => ⟨fun ha => memWrite_cmd hb ha w,
    fun r ha => memWrite_configReg hb ha w, fun i c hi ha => memWrite_pix hb hi ha w, fun ha => ?_⟩⟩
  refine memWrite_ignored hb (by omega) (fun r => ?_) (fun i c hi => ?_) w
  · have hge := r.offset_ge
    have hlt := (Reg.config r).offset_lt
    simp only [Reg.offset] at hlt
    omega
  · have hge := pixAddr_ge i c
    have hlt := pixAddr_lt hi c
    omega

/-- Settles O44: one read lemma per kind of bus target; the last range meets neither the registers nor the
pixel words. -/
theorem hostReadCases : Obligations.HostReadCases := by
  intro s addr
  simp only [← wordAddr_eq]
  refine ⟨fun r ha => memRead_reg ha, fun ha => memRead_reg (r := .cmd) ha,
    fun i c hi ha => memRead_pix hi ha, fun ha => memRead_undefined (fun r => ?_) ?_, rfl⟩
  · have hgap := r.offset_gap
    have hlt := r.offset_lt
    omega
  · simp only [Config.pixBase]
    omega

end Sys2Proof.Machine
end

section
/-! PROOFS. The family 30_encoding: the command word (rules R83 to R86 and R186) and the words and expansions
of the host assembly (rules R90 to R95). First what selects a row and what the decoder answers, then the
completion of an illegal word, then what the assembler writes, then the obligations. -/

namespace Sys2Proof.Machine

/-! ### The rows of the opcode map -/

/-- The row of a command by its OP: the match is the OP, and the mask is full but for ENCODE_FRAME (rule R83). -/
theorem row_eq_of_op (i : Instr) :
    i.row = (i.op.setWidth 32, if i.op = 0x2#4 then encodeFrameMask else 0xFFFFFFFF#32) := by
  cases i <;> rfl

/-- The row a word selects pins its low four bits (rules R81 and R83). -/
theorem opField_of_selectedBy {i : Instr} {w : Word} (h : i.selectedBy w) : opField w = i.op := by
  cases i with
  | encodeFrame n pre post =>
    apply BitVec.eq_of_toNat_eq
    rw [opField_toNat]
    exact ((encodeFrame_selected_iff w).mp h).1
  | _ => rw [eq_of_and_fullMask h]; rfl

/-! ### What the decoder answers -/

/-- A command whose row has the full mask is decoded from the row's match alone. -/
theorem decode_ok_iff_of_fullMask {i : Instr} (hmask : i.row.2 = 0xFFFFFFFF#32)
    (hmatch : decode i.row.1 = .ok i) (w : Word) : decode w = .ok i ↔ w &&& 0xFFFFFFFF#32 = i.row.1 := by
  constructor
  · intro h
    rw [← hmask]
    exact selectedBy_of_decode h
  · intro h
    rw [eq_of_and_fullMask h, hmatch]

/-- A word that selects the row of ENCODE_FRAME decodes to it, the operands being its fields (rule R82). -/
theorem decode_of_encodeFrame_selected {w : Word} (h : w &&& encodeFrameMask = 0x00000002#32) :
    decode w = .ok (.encodeFrame (nField w) (preField w) (postField w)) := by
  have h0 : w ≠ 0x00000000#32 := by rintro rfl; revert h; decide
  have h1 : w ≠ 0x00000001#32 := by rintro rfl; revert h; decide
  simp only [decode, if_neg h0, if_neg h1, if_pos h]

theorem decode_encodeFrame_operands {w : Word} {n : Nat} {pre post : Bool}
    (h : decode w = .ok (.encodeFrame n pre post)) :
    n = nField w ∧ pre = preField w ∧ post = postField w := by
  have hsel : w &&& encodeFrameMask = 0x00000002#32 := selectedBy_of_decode h
  rw [decode_of_encodeFrame_selected hsel] at h
  cases h
  exact ⟨rfl, rfl, rfl⟩

/-- The decoder answers ILLEGAL exactly on the words that match no line of rule R84. -/
theorem decode_illegal_iff_no_match (w : Word) :
    decode w = .error (.illegal (opField w)) ↔
      w ≠ 0x00000000#32 ∧ w ≠ 0x00000001#32 ∧ w &&& encodeFrameMask ≠ 0x00000002#32 ∧
        w ≠ 0x00000003#32 ∧ w ≠ 0x00000004#32 ∧ w ≠ 0x00000005#32 := by
  unfold decode
  split_ifs <;> simp [*]

/-- Rule R85: OP above 0x5, or a bit set that must be 0 for its OP. -/
theorem decode_illegal_iff (w : Word) :
    decode w = .error (.illegal (opField w)) ↔
      6 ≤ (opField w).toNat ∨ (opField w ≠ 0x2#4 ∧ w.extractLsb' 4 28 ≠ 0#28) ∨
        (opField w = 0x2#4 ∧ w.extractLsb' 6 10 ≠ 0#10) := by
  have hw := w.isLt
  rw [decode_illegal_iff_no_match]
  simp only [ne_eq, encodeFrame_selected_iff]
  simp only [← BitVec.toNat_inj, opField_toNat, BitVec.extractLsb'_toNat, Nat.shiftRight_eq_div_pow,
    BitVec.toNat_ofNat]
  omega

/-! ### The completion of an illegal word -/

theorem encoderTurn_of_illegal {s : State} {w : Word} {op : BitVec 4} (hp : s.pending = some w)
    (hd : decode w = .error (.illegal op)) : s.encoderTurn = .next (s.finish .illegalCmd op []) := by
  simp [State.encoderTurn, runWord, execIllegal, hp, hd]

/-- A command that emits nothing writes RESULT and OUT_LEN and leaves the latch empty, no more. -/
theorem finish_nil (s : State) (code : ResultCode) (op : BitVec 4) :
    s.finish code op [] =
      { s with pending := none, resultCode := code, lastOp := op, outLen := 0#32 } := by
  simp [State.finish]

/-- RESULT after an illegal word: LAST_OP above the code 5 (rules R23 and R24). -/
theorem finish_illegal_resultWord (s : State) (op : BitVec 4) :
    (s.finish .illegalCmd op []).readReg .result = 0#20 ++ (op ++ 0x05#8) := rfl

/-! ### The words the assembler writes -/

/-- A field of 16 bits above a constant of 16 bits, as a number. -/
theorem shiftLeft_or_toNat {n : Nat} (hn : n ≤ 65535) {c : Word} (hc : c.toNat < 2 ^ 16) :
    ((BitVec.ofNat 32 n <<< 16) ||| c).toNat = n * 65536 + c.toNat := by
  have hhigh : (BitVec.ofNat 32 n <<< 16).toNat = 2 ^ 16 * n := by
    simp only [BitVec.toNat_shiftLeft, BitVec.toNat_ofNat, Nat.shiftLeft_eq]
    omega
  rw [BitVec.toNat_or, hhigh, ← Nat.two_pow_add_eq_or_of_lt hc]
  omega

/-- The word of ENCODE_FRAME as rule R90 writes it. -/
theorem encode_encodeFrame {n : Nat} (hn : n ≤ 65535) (pre post : Bool) :
    encode (.encodeFrame n pre post) = (BitVec.ofNat 32 n <<< 16) |||
      (if pre then (if post then 0x32#32 else 0x12#32) else (if post then 0x22#32 else 0x2#32)) := by
  apply BitVec.eq_of_toNat_eq
  rw [encodeFrame_toNat, shiftLeft_or_toNat hn (by cases pre <;> cases post <;> decide),
    Nat.mod_eq_of_lt (by omega)]
  cases pre <;> cases post <;> simp

theorem wrCommand_encodeFrame {n : Nat} (hn : n ≤ 65535) (pre post : Bool) :
    wrCommand (.encodeFrame n pre post) = .ok (.wr 0x000#21 (encode (.encodeFrame n pre post))) := by
  have hwf : (Instr.encodeFrame n pre post).wellFormed = true := decide_eq_true hn
  simp only [wrCommand, if_pos hwf]
  rfl

theorem wrCommand_encodeFrame_error {n : Nat} (hn : 65535 < n) (pre post : Bool) :
    wrCommand (.encodeFrame n pre post) = .error (.countOutOfRange n) := by
  have hwf : (Instr.encodeFrame n pre post).wellFormed = false := decide_eq_false (by omega)
  simp [wrCommand, hwf]

theorem asWord_ok {n : Nat} (h : n < 2 ^ 32) : asWord n = .ok (BitVec.ofNat 32 n) := by
  have hle : n ≤ Config.wordMax := by
    simp only [Config.wordMax]
    omega
  rw [asWord, if_pos hle]

/-- Below 2^32 a pixel value is written as `v mod 2^32`, negative or not (rule R92). -/
theorem pixelWord_ok {v : Int} (h : v < 2 ^ 32) : pixelWord v = .ok (BitVec.ofInt 32 v) := by
  by_cases hneg : v < 0
  · exact if_pos hneg
  · obtain ⟨n, rfl⟩ := Int.eq_ofNat_of_zero_le (not_lt.mp hneg)
    have hn : n < 2 ^ 32 := by omega
    rw [pixelWord, if_neg hneg, Int.toNat_natCast, asWord_ok hn, BitVec.ofInt_natCast]

theorem wrStmt_ok (a : Nat) {v : Nat} (h : v < 2 ^ 32) :
    wrStmt a v = .ok (.wr (BitVec.ofNat 21 a) (BitVec.ofNat 32 v)) := by
  rw [wrStmt, asWord_ok h]
  rfl

theorem wrPixel_ok (i c : Nat) {v : Int} (h : v < 2 ^ 32) :
    wrPixel i c v = .ok (.wr (BitVec.ofNat 21 (0x100000 + 16 * i + 4 * c)) (BitVec.ofInt 32 v)) := by
  rw [wrPixel, pixelWord_ok h]
  rfl

/-! ### What the assembler expands a source statement to -/

/-- A command mnemonic expands to the one write of the command's word, or to its error (rule R90). -/
theorem expand_command (labels : List (String × Nat)) (k : Nat) (i : Instr) :
    (SourceStmt.command i).expand labels k = (wrCommand i).map fun st => [st] := rfl

/-- RUN is the command's write, then WAITIDLE (rule R94). -/
theorem expand_run_of_command {labels : List (String × Nat)} {k : Nat} {i : Instr} {st : HostStmt}
    (h : (SourceStmt.command i).expand labels k = .ok [st]) :
    (SourceStmt.run i).expand labels k = .ok [st, waitIdleAt (k + 1)] := by
  rw [expand_command] at h
  cases hw : wrCommand i with
  | error e => rw [hw] at h; cases h
  | ok st' =>
    rw [hw] at h
    cases h
    simp only [SourceStmt.expand, hw]
    rfl

theorem expand_setPix_three (labels : List (String × Nat)) (k i : Nat) {v0 v1 v2 : Int}
    (h0 : v0 < 2 ^ 32) (h1 : v1 < 2 ^ 32) (h2 : v2 < 2 ^ 32) :
    (SourceStmt.setPix i v0 v1 v2 none).expand labels k =
      .ok [.wr (BitVec.ofNat 21 (0x100000 + 16 * i)) (BitVec.ofInt 32 v0),
        .wr (BitVec.ofNat 21 (0x100000 + 16 * i + 4)) (BitVec.ofInt 32 v1),
        .wr (BitVec.ofNat 21 (0x100000 + 16 * i + 8)) (BitVec.ofInt 32 v2)] := by
  simp only [SourceStmt.expand, wrPixel_ok _ _ h0, wrPixel_ok _ _ h1, wrPixel_ok _ _ h2]
  rfl

theorem expand_setPix_four (labels : List (String × Nat)) (k i : Nat) {v0 v1 v2 v3 : Int}
    (h0 : v0 < 2 ^ 32) (h1 : v1 < 2 ^ 32) (h2 : v2 < 2 ^ 32) (h3 : v3 < 2 ^ 32) :
    (SourceStmt.setPix i v0 v1 v2 (some v3)).expand labels k =
      .ok [.wr (BitVec.ofNat 21 (0x100000 + 16 * i)) (BitVec.ofInt 32 v0),
        .wr (BitVec.ofNat 21 (0x100000 + 16 * i + 4)) (BitVec.ofInt 32 v1),
        .wr (BitVec.ofNat 21 (0x100000 + 16 * i + 8)) (BitVec.ofInt 32 v2),
        .wr (BitVec.ofNat 21 (0x100000 + 16 * i + 12)) (BitVec.ofInt 32 v3)] := by
  simp only [SourceStmt.expand, wrPixel_ok _ _ h0, wrPixel_ok _ _ h1, wrPixel_ok _ _ h2,
    wrPixel_ok _ _ h3]
  rfl

/-! ### The obligations -/

/-- Settles O2: five rows have the full mask; ENCODE_FRAME's row is decoded with the fields as operands; OP
tells the rows apart. -/
theorem decodeFollowsOpcodeMap : Obligations.DecodeFollowsOpcodeMap := by
  intro w
  refine ⟨decode_ok_iff_of_fullMask rfl (by decide) w, decode_ok_iff_of_fullMask rfl (by decide) w,
    ⟨fun ⟨_, _, _, h⟩ => selectedBy_of_decode h,
      fun h => ⟨_, _, _, decode_of_encodeFrame_selected h⟩⟩,
    decode_ok_iff_of_fullMask rfl (by decide) w, decode_ok_iff_of_fullMask rfl (by decide) w,
    decode_ok_iff_of_fullMask rfl (by decide) w, fun n pre post h => ?_, fun i j hi hj => ?_⟩
  · obtain ⟨hn, hpre, hpost⟩ := decode_encodeFrame_operands h
    exact ⟨hn.trans (nField_eq w), hpre, hpost⟩
  · have hop := opField_of_selectedBy hi
    have hop_eq : i.op = j.op := hop.symm.trans (opField_of_selectedBy hj)
    exact ⟨by rw [row_eq_of_op i, row_eq_of_op j, hop_eq], hop⟩

/-- Settles O3: which words are illegal, then the Encoder's turn on one, also for the two examples. -/
theorem illegalWordsCompleteWithoutEffect : Obligations.IllegalWordsCompleteWithoutEffect := by
  intro w
  refine ⟨decode_illegal_iff w, fun s hp hd => ?_, fun s hp => ?_, fun s hp => ?_⟩
  · rw [encoderTurn_of_illegal hp hd, finish_nil]
  · exact ⟨_, encoderTurn_of_illegal (op := 0x2#4) hp (by decide),
      (finish_illegal_resultWord s _).trans (by decide)⟩
  · exact ⟨_, encoderTurn_of_illegal (op := 0xF#4) hp (by decide),
      (finish_illegal_resultWord s _).trans (by decide)⟩

/-- Settles O57: only ENCODE_FRAME has an operand, on which its word and the error depend. -/
theorem commandMnemonicWords : Obligations.CommandMnemonicWords := by
  intro labels k
  refine ⟨rfl, rfl, fun n pre post hn => ?_, fun n pre post hn => ?_, rfl, rfl, rfl⟩
  · rw [expand_command, wrCommand_encodeFrame hn, encode_encodeFrame hn]
    rfl
  · rw [expand_command, wrCommand_encodeFrame_error hn]
    rfl

/-- Settles O58: a value that is a 32-bit word is written as that word; WAITIDLE and CHECKOK have no
operand. -/
theorem pseudoInstructionExpansions : Obligations.PseudoInstructionExpansions := by
  intro labels k
  refine ⟨fun r v hv => ?_, fun i v0 v1 v2 h0 h1 h2 => expand_setPix_three labels k i h0 h1 h2,
    fun i v0 v1 v2 v3 h0 h1 h2 h3 => expand_setPix_four labels k i h0 h1 h2 h3, rfl,
    fun i st h => expand_run_of_command h, rfl⟩
  rw [SourceStmt.expand, wrStmt_ok _ hv]
  rfl

/-- Settles O1: twelve words, each decoded by evaluation. -/
theorem exampleWordsDecode : Obligations.ExampleWordsDecode := by
  unfold Obligations.ExampleWordsDecode
  decide

end Sys2Proof.Machine
end

section
/-! PROOFS. The family 40_pattern_generator: what the derivation computes (rules R103 to R105), what its checks
say when they pass (rules R113 to R115), which row of the table of rule R110 a failure reports, and what CONFIGURE
writes (rules R120 and R121). The obligations stand last. -/

namespace Sys2Proof.Machine

/-! ### The counts -/

/-- Adding half a bit before rounding down is rounding half up (rule R103). -/
theorem highBitsOf_eq_floor {c : ConfigRegs} (hrate : c.bitRateHz ≠ 0#32) (v : Bool) :
    (c.highBitsOf v : Int) = ⌊(c.highTyp v : ℚ) / c.bitPeriodNs + 1 / 2⌋ := by
  have hr : (c.bitRateHz.toNat : ℚ) ≠ 0 := by simpa [← BitVec.toNat_inj] using hrate
  have hfrac : (c.highTyp v : ℚ) / c.bitPeriodNs + 1 / 2 =
      ((1000000000 + 2 * c.highTyp v * c.bitRateHz.toNat : Nat) : ℚ) / (2000000000 : Nat) := by
    simp only [ConfigRegs.bitPeriodNs, Config.nsPerSecond]
    push_cast
    field_simp
    ring
  rw [hfrac, Rat.floor_natCast_div_natCast]
  rfl

/-- No check and no count reads TLD_TYP. -/
theorem derive_setTldTyp (c : ConfigRegs) (w : Word) :
    ({ c with tldTyp := w } : ConfigRegs).derive = c.derive := rfl

theorem highBits_add_lowBits (c : ConfigRegs) (v : Bool) :
    (c.highBitsOf v : Int) + c.lowBitsOf v = c.patternLen.toNat := by
  simp only [ConfigRegs.lowBitsOf, ConfigRegs.patLen]
  omega

theorem latchCount_of_tllMin_zero {c : ConfigRegs} (h : c.tllMin = 0#32) : c.latchCount = 0 := by
  simp [ConfigRegs.latchCount, ceilDiv, h, Config.latchSfOne, Config.nsPerSecond]

/-! ### The runs of a pattern -/

theorem leadingOnes_ones_zeros (h l : Nat) :
    leadingOnes (List.replicate h true ++ List.replicate l false) = h := by
  rw [leadingOnes, List.takeWhile_append_of_pos (by simp)]
  cases l <;> simp [List.replicate_succ]

theorem trailingZeros_ones_zeros (h l : Nat) :
    trailingZeros (List.replicate h true ++ List.replicate l false) = l := by
  rw [trailingZeros, List.reverse_append, List.reverse_replicate, List.reverse_replicate,
    List.takeWhile_append_of_pos (by simp)]
  cases h <;> simp [List.replicate_succ]

@[simp] theorem leadingOnes_patternOf (c : ConfigRegs) (v : Bool) :
    leadingOnes (c.patternOf v) = c.highBitsOf v := leadingOnes_ones_zeros _ _

theorem trailingZeros_patternOf {c : ConfigRegs} {v : Bool} (h : c.boundCheck v = none) :
    (trailingZeros (c.patternOf v) : Int) = c.lowBitsOf v := by
  rw [ConfigRegs.patternOf, trailingZeros_ones_zeros, Int.toNat_of_nonneg (lowBits_nonneg h)]

/-! ### The number of a pattern -/

/-- The sum of rule R120. -/
theorem bitsToNat_eq_sum (bits : List Bool) :
    bitsToNat bits = ∑ t ∈ Finset.range bits.length,
      (bits.getD t false).toNat * 2 ^ (bits.length - 1 - t) := by
  induction bits with
  | nil => rfl
  | cons b bs ih =>
    rw [bitsToNat_cons, ih, List.length_cons, Finset.sum_range_succ', add_comm]
    congr 1
    refine Finset.sum_congr rfl fun t _ => ?_
    rw [List.getD_cons_succ]
    congr 2
    omega

theorem bitsToNat_patternOf_eq_sum {c : ConfigRegs} {v : Bool} (h : c.boundCheck v = none) :
    bitsToNat (c.patternOf v) = ∑ t ∈ Finset.range c.patternLen.toNat,
      ((c.patternOf v).getD t false).toNat * 2 ^ (c.patternLen.toNat - 1 - t) := by
  rw [bitsToNat_eq_sum, patternOf_length h]
  rfl

theorem bitsToNat_patternOf_lt {c : ConfigRegs} {v : Bool} (h : c.boundCheck v = none) :
    bitsToNat (c.patternOf v) < 2 ^ c.patternLen.toNat := by
  have hlt := bitsToNat_lt (c.patternOf v)
  rwa [patternOf_length h] at hlt

theorem derive_ok_patterns_eq_sum {c : ConfigRegs} {d : Derivation} (h : c.derive = .ok d) :
    bitsToNat d.pat0 = ∑ t ∈ Finset.range c.patternLen.toNat,
        (d.pat0.getD t false).toNat * 2 ^ (c.patternLen.toNat - 1 - t) ∧
      bitsToNat d.pat1 = ∑ t ∈ Finset.range c.patternLen.toNat,
        (d.pat1.getD t false).toNat * 2 ^ (c.patternLen.toNat - 1 - t) := by
  obtain ⟨-, h0, h1, -, rfl⟩ := derive_ok h
  exact ⟨bitsToNat_patternOf_eq_sum h0, bitsToNat_patternOf_eq_sum h1⟩

/-! ### What the passed checks say -/

theorem bitRate_pos {c : ConfigRegs} (h : c.fieldCheck = none) : 0 < c.bitRateHz.toNat :=
  (fieldCheck_none h).1

theorem patternLen_le {c : ConfigRegs} (h : c.fieldCheck = none) : c.patternLen.toNat ≤ 32 := by
  obtain ⟨-, -, hlen, -⟩ := fieldCheck_none h
  exact hlen

theorem counts_fit {c : ConfigRegs} {v : Bool} (h : c.boundCheck v = none) :
    c.highBitsOf v ≤ c.patternLen.toNat ∧ 0 ≤ c.lowBitsOf v ∧ c.lowBitsOf v ≤ c.patternLen.toNat ∧
      (c.highBitsOf v : Int) + c.lowBitsOf v = c.patternLen.toNat := by
  have hsum := highBits_add_lowBits c v
  have hlow := lowBits_nonneg h
  omega

/-- A time and a run of bits compare as the model compares them, cross-multiplied with the rate (rule R101). -/
theorem time_le_bits_iff {c : ConfigRegs} (hrate : 0 < c.bitRateHz.toNat) (t n : Nat) :
    (t : ℚ) ≤ n * c.bitPeriodNs ↔ t * c.bitRateHz.toNat ≤ 1000000000 * n := by
  have hr : (0 : ℚ) < c.bitRateHz.toNat := by exact_mod_cast hrate
  rw [ConfigRegs.bitPeriodNs, ← mul_div_assoc, le_div_iff₀ hr, mul_comm (n : ℚ)]
  exact_mod_cast Iff.rfl

theorem bits_le_time_iff {c : ConfigRegs} (hrate : 0 < c.bitRateHz.toNat) (t n : Nat) :
    n * c.bitPeriodNs ≤ (t : ℚ) ↔ 1000000000 * n ≤ t * c.bitRateHz.toNat := by
  have hr : (0 : ℚ) < c.bitRateHz.toNat := by exact_mod_cast hrate
  rw [ConfigRegs.bitPeriodNs, ← mul_div_assoc, div_le_iff₀ hr, mul_comm (n : ℚ)]
  exact_mod_cast Iff.rfl

/-- The two windows of one logical value (rule R114). -/
theorem patternOf_meets_windows {c : ConfigRegs} {v : Bool} (hrate : 0 < c.bitRateHz.toNat)
    (h : c.boundCheck v = none) :
    (c.highMin v : ℚ) ≤ leadingOnes (c.patternOf v) * c.bitPeriodNs ∧
      leadingOnes (c.patternOf v) * c.bitPeriodNs ≤ c.highMax v ∧
      (c.tldMin.toNat : ℚ) ≤ trailingZeros (c.patternOf v) * c.bitPeriodNs ∧
      trailingZeros (c.patternOf v) * c.bitPeriodNs ≤ c.tldMax.toNat := by
  obtain ⟨hminH, hmaxH, hminL, hmaxL⟩ := boundCheck_none_iff.mp h
  rw [← trailingZeros_patternOf h] at hminL hmaxL
  rw [time_le_bits_iff hrate, bits_le_time_iff hrate, time_le_bits_iff hrate, bits_le_time_iff hrate,
    leadingOnes_patternOf]
  exact ⟨by exact_mod_cast hminH, by exact_mod_cast hmaxH, by exact_mod_cast hminL,
    by exact_mod_cast hmaxL⟩

/-- A pattern without low bits passes only where no low time is asked for (rule R120, corner cases). -/
theorem tldMin_eq_zero {c : ConfigRegs} {v : Bool} (hrate : 0 < c.bitRateHz.toNat)
    (h : c.boundCheck v = none) (hlow : c.lowBitsOf v = 0) : c.tldMin = 0#32 := by
  obtain ⟨-, -, hminL, -⟩ := boundCheck_none_iff.mp h
  rw [hlow, mul_zero] at hminL
  have hprod : c.tldMin.toNat * c.bitRateHz.toNat = 0 := by omega
  exact BitVec.eq_of_toNat_eq ((Nat.mul_eq_zero.mp hprod).resolve_right hrate.ne')

/-! ### What a failed check says -/

theorem fieldCheck_rateZero {c : ConfigRegs} (h : c.bitRateHz = 0#32) :
    c.fieldCheck = some .rateZero := by
  simp [ConfigRegs.fieldCheck, h]

theorem fieldCheck_patternLen {c : ConfigRegs} (hrate : c.bitRateHz ≠ 0#32) (hlen : 32 < c.patLen) :
    c.fieldCheck = some .patternLen := by
  have hr : c.bitRateHz.toNat ≠ 0 := by simpa [← BitVec.toNat_inj] using hrate
  simp [ConfigRegs.fieldCheck, hr, Config.patternMaxBits, hlen]

theorem derive_of_fieldCheck {c : ConfigRegs} {e : CfgError} (h : c.fieldCheck = some e) :
    c.derive = .error ⟨e, 0#32⟩ := by
  simp [ConfigRegs.derive, h]

/-- Everything a failed bound check can report, with the high bound it found missed (rules R106 and R107). -/
theorem boundCheck_some_cases {c : ConfigRegs} {v : Bool} {f : CfgFailure}
    (h : c.boundCheck v = some f) :
    (f.error = .bound v .high .belowMin ∧
      1000000000 * (c.highBitsOf v : Int) < ((c.highMin v * c.bitRateHz.toNat : Nat) : Int)) ∨
    (f.error = .bound v .high .aboveMax ∧
      ((c.highMax v * c.bitRateHz.toNat : Nat) : Int) < 1000000000 * (c.highBitsOf v : Int)) ∨
    (∃ side, f.error = .bound v .low side) := by
  simp only [ConfigRegs.boundCheck] at h
  split_ifs at h with hminH hmaxH hminL hmaxL <;> cases h
  · exact .inl ⟨rfl, hminH⟩
  · exact .inr (.inl ⟨rfl, hmaxH⟩)
  · exact .inr (.inr ⟨_, rfl⟩)
  · exact .inr (.inr ⟨_, rfl⟩)

/-- A high count of 0 is below no minimum of 0, and above no maximum (rule R120, corner cases). -/
theorem boundCheck_error_ne_high {c : ConfigRegs} {v : Bool} {f : CfgFailure}
    (hbits : c.highBitsOf v = 0) (hmin : c.highMin v = 0) (h : c.boundCheck v = some f)
    (side : BoundSide) : f.error ≠ .bound v .high side := by
  rcases boundCheck_some_cases h with ⟨-, hlt⟩ | ⟨-, hlt⟩ | ⟨side', he⟩
  · rw [hbits, hmin] at hlt
    omega
  · rw [hbits] at hlt
    omega
  · rw [he]
    simp

/-- The three parts of a bound check's code (rule R110). -/
theorem boundCode_bits (v : Bool) (part : SlotPart) (side : BoundSide) :
    let code := (CfgError.bound v part side).code
    (code.extractLsb' 4 4).toNat = v.toNat + 1 ∧ code.getLsbD 1 = decide (part = .low) ∧
      code.getLsbD 0 = decide (side = .aboveMax) := by
  cases v <;> cases part <;> cases side <;> decide

/-- The first failed check of the derivation, if any (rule R112). -/
def ConfigRegs.failure (c : ConfigRegs) : Option CfgFailure :=
  match c.derive with
  | .error f => some f
  | .ok _ => none

theorem failure_of_error {c : ConfigRegs} {f : CfgFailure} (h : c.derive = .error f) :
    c.failure = some f := by
  simp [ConfigRegs.failure, h]

theorem failure_of_ok {c : ConfigRegs} {d : Derivation} (h : c.derive = .ok d) : c.failure = none := by
  simp [ConfigRegs.failure, h]

/-- The four stages of the derivation in their order. -/
theorem failure_eq (c : ConfigRegs) :
    c.failure = (((c.fieldCheck.map fun e => ⟨e, 0#32⟩).or (c.boundCheck false)).or
      (c.boundCheck true)).or
        (if c.highBitsOf false = c.highBitsOf true then some ⟨.indistinct, 0#32⟩ else none) := by
  unfold ConfigRegs.failure ConfigRegs.derive
  cases c.fieldCheck with
  | some e => rfl
  | none =>
    cases c.boundCheck false with
    | some f => rfl
    | none =>
      cases c.boundCheck true with
      | some f => rfl
      | none => split_ifs <;> rfl

/-! ### The table of rule R110 in the terms of the derivation

`checkTable` reads the rows off the rule. Here they stand stage by stage, each with the very condition and amount
that the derivation tests; `checkTable_eq` says that these are the rows of the table. -/

/-- The row of a check with its condition and its amount. -/
def CfgError.row (e : CfgError) (p : Prop) [Decidable p] (miss : Option Int) : CheckRow :=
  ⟨decide p, e.code, miss⟩

/-- Rows 1 to 6. -/
def ConfigRegs.fieldRows (c : ConfigRegs) : List CheckRow :=
  [CfgError.rateZero.row (c.bitRateHz.toNat = 0) none,
    CfgError.patternLen.row (c.patLen < 1 ∨ Config.patternMaxBits < c.patLen) none,
    CfgError.chanCount.row (¬ (c.chanCount = 3 ∨ c.chanCount = 4)) none,
    CfgError.chanOrder.row
      ((c.order.map BitVec.toNat).isPerm (List.range c.chanCount) = false) none,
    CfgError.latchFactor.row (c.latchSf.toNat < Config.latchSfOne) none,
    CfgError.latchRange.row (Config.wordMax < c.latchCount) none]

/-- Rows 7 to 10 for v = 0, rows 11 to 14 for v = 1. -/
def ConfigRegs.boundRows (c : ConfigRegs) (v : Bool) : List CheckRow :=
  let rate := c.bitRateHz.toNat
  let high : Int := (Config.nsPerSecond : Int) * (c.highBitsOf v : Int)
  let low : Int := (Config.nsPerSecond : Int) * c.lowBitsOf v
  let minH : Int := ((c.highMin v * rate : Nat) : Int)
  let maxH : Int := ((c.highMax v * rate : Nat) : Int)
  let minL : Int := ((c.tldMin.toNat * rate : Nat) : Int)
  let maxL : Int := ((c.tldMax.toNat * rate : Nat) : Int)
  [(CfgError.bound v .high .belowMin).row (high < minH) (some (minH - high)),
    (CfgError.bound v .high .aboveMax).row (maxH < high) (some (high - maxH)),
    (CfgError.bound v .low .belowMin).row (low < minL) (some (minL - low)),
    (CfgError.bound v .low .aboveMax).row (maxL < low) (some (low - maxL))]

/-- Row 15. -/
def ConfigRegs.distinctRow (c : ConfigRegs) : CheckRow :=
  CfgError.indistinct.row (c.highBitsOf false = c.highBitsOf true) none

theorem chanCount_eq (c : ConfigRegs) : c.chanCount = c.chanCfg.toNat % 16 := by
  simp [ConfigRegs.chanCount, BitVec.extractLsb'_toNat]

theorem order_toNat (c : ConfigRegs) :
    c.order.map BitVec.toNat =
      (List.range (c.chanCfg.toNat % 16)).map fun k => c.chanCfg.toNat / 2 ^ (8 + 2 * k) % 4 := by
  simp [ConfigRegs.order, ConfigRegs.ord, chanCount_eq, BitVec.extractLsb'_toNat,
    Nat.shiftRight_eq_div_pow]

/-- The field rows differ in the spelling of CHAN_CFG's fields and in natural numbers read as integers; the others
agree by evaluation. -/
theorem checkTable_eq (c : ConfigRegs) :
    checkTable c = c.fieldRows ++ c.boundRows false ++ c.boundRows true ++ [c.distinctRow] := by
  refine congrArg₂ (· ++ ·) (congrArg₂ (· ++ ·) (congrArg₂ (· ++ ·) ?_ rfl) rfl) ?_
  · simp only [ConfigRegs.fieldRows, CfgError.row, order_toNat, chanCount_eq, ConfigRegs.patLen,
      CfgError.code, List.cons.injEq, CheckRow.mk.injEq, decide_eq_decide, and_true,
      ← Bool.not_eq_true, List.isPerm_iff]
    refine ⟨Int.natCast_eq_zero, ?_, trivial, trivial, Iff.rfl, Iff.rfl⟩
    congr 1
    simp only [Config.patternMaxBits, eq_iff_iff]
    omega
  · simp only [ConfigRegs.distinctRow, CfgError.row, ← Int.natCast_inj (m := c.highBitsOf false)]
    rfl

/-! ### The first failing row -/

/-- `f` reports the failing row: its code and its amount, which is positive (rule R111). -/
structure CheckRow.ReportedBy (row : CheckRow) (rate : Nat) (f : CfgFailure) : Prop where
  code_eq : f.error.code = row.code
  delta_eq : f.delta = row.deltaWord rate
  miss_pos : ∀ x, row.miss = some x → 0 < x

theorem reportedBy_of_no_miss (rate : Nat) (e : CfgError) (p : Prop) [Decidable p] :
    (e.row p none).ReportedBy rate ⟨e, 0#32⟩ :=
  ⟨rfl, rfl, fun _ h => nomatch h⟩

/-- A bound check fails exactly where its amount is positive, so `deltaPs` loses nothing (rule R111). -/
theorem reportedBy_of_lt (rate : Nat) (e : CfgError) {a b : Int} (h : a < b) :
    (e.row (a < b) (some (b - a))).ReportedBy rate ⟨e, deltaPs (b - a) rate⟩ :=
  ⟨rfl, rfl, fun x hx => by cases hx; exact sub_pos.mpr h⟩

/-- `o` is the report of the first failing row of `rows`, none where no row fails. -/
def FirstFailureIs (rate : Nat) (rows : List CheckRow) (o : Option CfgFailure) : Prop :=
  Option.Rel (fun row f => row.ReportedBy rate f) (rows.find? fun r => r.fails) o

theorem FirstFailureIs.nil (rate : Nat) : FirstFailureIs rate [] none := .none

theorem FirstFailureIs.cons {rate : Nat} {e : CfgError} {p : Prop} [Decidable p] {miss : Option Int}
    {delta : Word} {rows : List CheckRow} {o : Option CfgFailure}
    (hrow : p → (e.row p miss).ReportedBy rate ⟨e, delta⟩) (hrows : FirstFailureIs rate rows o) :
    FirstFailureIs rate (e.row p miss :: rows) (if p then some ⟨e, delta⟩ else o) := by
  unfold FirstFailureIs
  by_cases hp : p
  · rw [List.find?_cons_of_pos (by simpa [CfgError.row] using hp), if_pos hp]
    exact .some (hrow hp)
  · rw [List.find?_cons_of_neg (by simpa [CfgError.row] using hp), if_neg hp]
    exact hrows

theorem FirstFailureIs.append {rate : Nat} {rows rows' : List CheckRow} {o o' : Option CfgFailure}
    (h : FirstFailureIs rate rows o) (h' : FirstFailureIs rate rows' o') :
    FirstFailureIs rate (rows ++ rows') (o.or o') := by
  unfold FirstFailureIs at *
  rw [List.find?_append]
  generalize rows.find? (fun r => r.fails) = first at h
  cases h with
  | none => exact h'
  | some hrow => exact .some hrow

theorem FirstFailureIs.exists_row {rate : Nat} {rows : List CheckRow} {f : CfgFailure}
    (h : FirstFailureIs rate rows (some f)) :
    ∃ row, rows.find? (fun r => r.fails) = some row ∧ row.ReportedBy rate f := by
  unfold FirstFailureIs at h
  generalize rows.find? (fun r => r.fails) = first at *
  cases h with
  | some hrow => exact ⟨_, rfl, hrow⟩

theorem FirstFailureIs.find?_eq_none {rate : Nat} {rows : List CheckRow}
    (h : FirstFailureIs rate rows none) : rows.find? (fun r => r.fails) = none := by
  unfold FirstFailureIs at h
  generalize rows.find? (fun r => r.fails) = first at *
  cases h
  rfl

theorem fieldRows_firstFailure (c : ConfigRegs) (rate : Nat) :
    FirstFailureIs rate c.fieldRows (c.fieldCheck.map fun e => ⟨e, 0#32⟩) := by
  simp only [ConfigRegs.fieldCheck, apply_ite (Option.map fun e => (⟨e, 0#32⟩ : CfgFailure)),
    Option.map_some, Option.map_none]
  repeat' apply FirstFailureIs.cons fun _ => reportedBy_of_no_miss ..
  exact .nil rate

theorem boundRows_firstFailure (c : ConfigRegs) (v : Bool) :
    FirstFailureIs c.bitRateHz.toNat (c.boundRows v) (c.boundCheck v) := by
  unfold ConfigRegs.boundCheck ConfigRegs.boundRows
  repeat' apply FirstFailureIs.cons fun h => reportedBy_of_lt _ _ h
  exact .nil _

/-- Stage by stage the derivation reports the first failing row (rules R110 and R112). -/
theorem checkTable_firstFailure (c : ConfigRegs) :
    FirstFailureIs c.bitRateHz.toNat (checkTable c) c.failure := by
  rw [checkTable_eq, failure_eq]
  exact (((fieldRows_firstFailure c _).append (boundRows_firstFailure c false)).append
    (boundRows_firstFailure c true)).append
      (.cons (fun _ => reportedBy_of_no_miss ..) (.nil _))

theorem checkTable_of_error {c : ConfigRegs} {f : CfgFailure} (h : c.derive = .error f) :
    ∃ row, (checkTable c).find? (fun r => r.fails) = some row ∧ row.ReportedBy c.bitRateHz.toNat f :=
  (failure_of_error h ▸ checkTable_firstFailure c).exists_row

theorem checkTable_of_ok {c : ConfigRegs} {d : Derivation} (h : c.derive = .ok d) :
    (checkTable c).find? (fun r => r.fails) = none :=
  (failure_of_ok h ▸ checkTable_firstFailure c).find?_eq_none

/-! ### What the commands answer -/

theorem exec_configure_configured {s : State} (hc : s.configured = true) :
    exec .configure s = .next (s.finish .alreadyConfigured 0x1#4 []) := if_pos hc

theorem exec_configure_error {s : State} {f : CfgFailure} (hc : s.configured = false)
    (hd : s.cfg.derive = .error f) : exec .configure s = .next (s.raiseConfigurationError f) := by
  simp [exec, execConfigure, hc, hd]

theorem exec_configure_ok {s : State} {d : Derivation} (hc : s.configured = false)
    (hd : s.cfg.derive = .ok d) : exec .configure s = .next (s.installConfiguration d) := by
  simp [exec, execConfigure, hc, hd]

theorem exec_encodeFrame_unconfigured {s : State} (hc : s.configured = false) (n : Nat)
    (pre post : Bool) :
    exec (.encodeFrame n pre post) s = .next (s.finish .notConfigured 0x2#4 []) := if_pos hc

theorem exec_generateLatch_unconfigured {s : State} (hc : s.configured = false) :
    exec .generateLatch s = .next (s.finish .notConfigured 0x3#4 []) := if_pos hc

/-- RESULT after a command: LAST_OP above CODE (rule R23). -/
theorem finish_readReg_result (s : State) (code : ResultCode) (op : BitVec 4) (bytes : List Byte) :
    (s.finish code op bytes).readReg .result = 0#20 ++ (op ++ code.code) := rfl

theorem raiseConfigurationError_result (s : State) (f : CfgFailure) :
    (s.raiseConfigurationError f).readReg .result = 0x00000101#32 :=
  (finish_readReg_result _ .cfgError 0x1#4 []).trans (by decide)

theorem installConfiguration_result (s : State) (d : Derivation) :
    (s.installConfiguration d).readReg .result = 0x00000100#32 :=
  (finish_readReg_result _ .ok 0x1#4 []).trans (by decide)

/-- A configuration register lies at a word address, so its offset addresses it. -/
theorem wordAddr_eq_configOffset {addr : BusAddr} {r : ConfigReg} (h : addr.toNat = r.offset) :
    wordAddr addr = r.offset := by
  rw [wordAddr_eq, h]
  cases r <;> rfl

theorem memWrite_config_unconfigured {s : State} (hb : s.busy = false) (hc : s.configured = false)
    {r : ConfigReg} {addr : BusAddr} (ha : addr.toNat = r.offset) (w : Word) :
    s.memWrite addr w = { s with cfg := s.cfg.set r w } := by
  rw [memWrite_configReg hb (wordAddr_eq_configOffset ha), State.writeConfig, hc]
  rfl

/-- The example of rule R120: h_0 = 3 and h_1 = 6 of 16 bits at 8 MHz. -/
theorem derive_regs_8MHz {c : ConfigRegs} {d : Derivation} (h : c.derive = .ok d)
    (hrate : c.bitRateHz = 8000000#32) (hlen : c.patternLen = 16#32) (ht0 : c.t0hTyp = 350#32)
    (ht1 : c.t1hTyp = 700#32) :
    d.regs.pattern0 = 0x0000E000#32 ∧ d.regs.pattern1 = 0x0000FC00#32 ∧
      d.regs.highBits = 0x0A0D0603#32 := by
  obtain ⟨-, -, -, -, rfl⟩ := derive_ok h
  have h0 : c.highBitsOf false = 3 := by
    simp [ConfigRegs.highBitsOf, ConfigRegs.highTyp, hrate, ht0, Config.nsPerSecond]
  have h1 : c.highBitsOf true = 6 := by
    simp [ConfigRegs.highBitsOf, ConfigRegs.highTyp, hrate, ht1, Config.nsPerSecond]
  simp only [Derivation.regs, ConfigRegs.patternOf, ConfigRegs.lowBitsOf, ConfigRegs.patLen, h0, h1,
    hlen]
  decide

/-! ### The obligations -/

/-- Settles O19: the two typical high times are the two values of `ConfigRegs.highTyp`. -/
theorem highBitsRoundHalfUp : Obligations.HighBitsRoundHalfUp := by
  refine ⟨fun c v hrate => ?_, derive_setTldTyp⟩
  cases v <;> exact highBitsOf_eq_floor hrate _

/-- Settles O20: the low bound check refuses a negative low count, and the two counts add up to L. -/
theorem derivedCountsFitPattern : Obligations.DerivedCountsFitPattern := by
  intro c d h
  obtain ⟨hfield, h0, h1, -, rfl⟩ := derive_ok h
  exact ⟨counts_fit h0, counts_fit h1, patternOf_length h0, patternOf_length h1,
    bitsToNat_patternOf_lt h0, bitsToNat_patternOf_lt h1, patternLen_le hfield⟩

/-- Settles O21: the runs of a pattern are its counts, which the bound checks hold against the windows. -/
theorem derivedPatternsMeetWindows : Obligations.DerivedPatternsMeetWindows := by
  intro c d h
  obtain ⟨hfield, h0, h1, -, rfl⟩ := derive_ok h
  have hrate := bitRate_pos hfield
  exact ⟨patternOf_meets_windows hrate h0, patternOf_meets_windows hrate h1⟩

/-- Settles O22: equal patterns would have equal runs of ones, and the last check keeps those apart. -/
theorem derivedPatternsDiffer : Obligations.DerivedPatternsDiffer := by
  intro c d h
  obtain ⟨-, h0, h1, hne, rfl⟩ := derive_ok h
  refine ⟨fun heq => hne ?_, rfl, rfl, leadingOnes_patternOf c _, leadingOnes_patternOf c _,
    trailingZeros_patternOf h0, trailingZeros_patternOf h1⟩
  simpa using congrArg leadingOnes heq

/-- Settles O18: an unconfigured CONFIGURE writes the report of the first failing row, or none where the
derivation succeeds. -/
theorem configureReportsFirstFailedCheck : Obligations.ConfigureReportsFirstFailedCheck := by
  intro s hc
  cases hd : s.cfg.derive with
  | error f =>
    obtain ⟨first, hfirst, hcode, hdelta, hpos⟩ := checkTable_of_error hd
    rw [hfirst]
    refine ⟨_, exec_configure_error hc hd, ?_, (nomatch ·), rfl, boundCode_bits, by decide⟩
    rintro row ⟨⟩
    exact ⟨hc, raiseConfigurationError_result s f, hcode ▸ rfl, hdelta, hpos⟩
  | ok d =>
    rw [checkTable_of_ok hd]
    exact ⟨_, exec_configure_ok hc hd, (nomatch ·, ·),
      fun _ => ⟨rfl, installConfiguration_result s d, rfl, rfl⟩, rfl, boundCode_bits, by decide⟩

/-- Settles O17: the state after the failure is unconfigured and idle, so both emitting commands are refused and
a configuration write is stored. -/
theorem configureFailureLeavesUnconfigured : Obligations.ConfigureFailureLeavesUnconfigured := by
  intro s f hc hd
  have hfailed : (s.raiseConfigurationError f).configured = false := hc
  refine ⟨_, exec_configure_error hc hd, rfl, rfl, rfl, rfl, rfl, rfl,
    raiseConfigurationError_result s f, rfl, hfailed, rfl, fun n pre post => ?_, ?_,
    fun r addr w ha => memWrite_config_unconfigured rfl hfailed ha w⟩
  · exact ⟨_, exec_encodeFrame_unconfigured hfailed n pre post,
      (finish_readReg_result _ .notConfigured 0x2#4 []).trans (by decide), List.append_nil _⟩
  · exact ⟨_, exec_generateLatch_unconfigured hfailed,
      (finish_readReg_result _ .notConfigured 0x3#4 []).trans (by decide), List.append_nil _⟩

/-- Settles O16: one outcome lemma per case, with each pattern register as the sum over its bits, and one lemma
per corner case. -/
theorem configureOutcomes : Obligations.ConfigureOutcomes := by
  refine ⟨by decide, fun s hc => ?_, fun s f hc hd => ?_, fun s d hc hd => ?_,
    fun c hrate => derive_of_fieldCheck (fieldCheck_rateZero hrate),
    fun c hrate hlen => derive_of_fieldCheck (fieldCheck_patternLen hrate ?_),
    fun c d hd => ⟨fun hlen hones => ?_, fun htll => ?_⟩,
    fun c v f hbits hmin h => boundCheck_error_ne_high hbits hmin h,
    fun s d hc hd hrate hlen ht0 ht1 =>
      ⟨_, exec_configure_ok hc hd, derive_regs_8MHz hd hrate hlen ht0 ht1⟩⟩
  · rw [exec_configure_configured hc, finish_nil]
  · rw [exec_configure_error hc hd, State.raiseConfigurationError, finish_nil]
    rfl
  · obtain ⟨hsum0, hsum1⟩ := derive_ok_patterns_eq_sum hd
    rw [exec_configure_ok hc hd, State.installConfiguration, finish_nil, Derivation.regs, hsum0, hsum1]
    rfl
  · simp [ConfigRegs.patLen, hlen]
  · obtain ⟨hfield, -, h1, -, rfl⟩ := derive_ok hd
    have hsum := highBits_add_lowBits c true
    rw [show c.highBitsOf true = 32 from hones, hlen] at hsum
    exact tldMin_eq_zero (bitRate_pos hfield) h1 (add_eq_left.mp hsum)
  · obtain ⟨-, -, -, -, rfl⟩ := derive_ok hd
    exact latchCount_of_tllMin_zero htll

end Sys2Proof.Machine
end

section
/-! PROOFS. The family 41_frame_assembler: which channel word ENCODE_FRAME reports (rules R145 and R146), where the
bits and bytes of a frame lie (rules R147, R149 and R151), what the frame depends on (rule R153), and what the
command answers (rule R148). The obligations stand last. -/

namespace Sys2Proof.Machine

/-! ### The legal channel words (rule R145) -/

theorem channelLegal_iff (w : Word) : channelLegal w = true ↔ 0 ≤ w.toInt ∧ w.toInt ≤ 255 := by
  simp [channelLegal]

theorem channelLegal_eq_false_iff (w : Word) : channelLegal w = false ↔ w.toInt < 0 ∨ 255 < w.toInt := by
  rw [← Bool.not_eq_true, channelLegal_iff]
  omega

/-! ### The first illegal word in transmission order (rule R146) -/

/-- `walk_getElem?` read backwards: the place of the walk gives the pixel and the order position. -/
theorem walk_getElem?_div_mod {c : ConfigRegs} {n m : Nat} (hm : m < n * c.chanCount) :
    (c.walk n)[m]? = some (m / c.chanCount, c.ord (m % c.chanCount)) := by
  have hpos : 0 < c.chanCount := Nat.pos_of_mul_pos_left (by omega : 0 < n * c.chanCount)
  have h := walk_getElem? c n (m / c.chanCount) (m % c.chanCount)
    (Nat.div_lt_of_lt_mul (by rwa [mul_comm])) (Nat.mod_lt m hpos)
  rwa [Nat.div_add_mod'] at h

/-- A place before that of pixel i, order position k, is a smaller pixel or a smaller position (rule R142). -/
theorem div_mod_before {C i k m : Nat} (hk : k < C) (hm : m < i * C + k) :
    m / C < i ∨ (m / C = i ∧ m % C < k) := by
  have hdiv : m / C < i + 1 := Nat.div_lt_of_lt_mul (by rw [mul_comm, add_mul]; omega)
  rcases Nat.lt_succ_iff_lt_or_eq.mp hdiv with h | h
  · exact .inl h
  · have := Nat.div_add_mod' m C
    rw [h] at this
    exact .inr ⟨h, by omega⟩

theorem firstIllegal_eq_some {s : State} {n i k : Nat} (hi : i < n) (hk : k < s.cfg.chanCount)
    (hbad : channelLegal (s.pixWord i (s.cfg.ord k)) = false)
    (hbefore : ∀ i' k', k' < s.cfg.chanCount → (i' < i ∨ (i' = i ∧ k' < k)) →
      channelLegal (s.pixWord i' (s.cfg.ord k')) = true) :
    s.firstIllegal n = some (i, s.cfg.ord k) := by
  obtain ⟨hplace, hword⟩ := List.getElem?_eq_some_iff.mp (walk_getElem? s.cfg n i k hi hk)
  refine List.find?_eq_some_iff_getElem.mpr ⟨by simp [hbad], _, hplace, hword, fun m hm => ?_⟩
  have hm' : m < n * s.cfg.chanCount := by
    rw [walk_length] at hplace
    omega
  obtain ⟨_, hword'⟩ := List.getElem?_eq_some_iff.mp (walk_getElem?_div_mod hm')
  have hlegal := hbefore _ _ (Nat.mod_lt m (by omega)) (div_mod_before hk hm)
  simp [hword', hlegal]

theorem firstIllegal_eq_none {s : State} {n : Nat}
    (h : ∀ i k, i < n → k < s.cfg.chanCount → channelLegal (s.pixWord i (s.cfg.ord k)) = true) :
    s.firstIllegal n = none := by
  refine List.find?_eq_none.mpr fun p hp => ?_
  obtain ⟨hi, k, hk, hch⟩ := mem_walk.mp hp
  simp [hch, h p.1 k hi hk]

/-! ### The sizes of a frame (rule R150) -/

theorem encodeBits_length (s : State) (n : Nat) :
    (s.encodeBits n).length = n * s.cfg.chanCount * 8 * s.cfg.patLen := by
  rw [State.encodeBits, flatMap_length_of _ (8 * s.cfg.patLen) (by simp), walk_length, ← mul_assoc]

/-- The bit stream of a frame fills whole bytes, so `lineBits_pack` applies to it. -/
theorem encodeBits_wholeBytes (s : State) (n : Nat) :
    (s.encodeBits n).length = 8 * (n * s.cfg.chanCount * s.cfg.patLen) := by
  rw [encodeBits_length]
  ring

@[simp] theorem frameBytes_length (s : State) (n : Nat) :
    (s.frameBytes n).length = n * s.cfg.chanCount * s.cfg.patLen :=
  (lineBits_pack _ _ (encodeBits_wholeBytes s n)).2

theorem lineBits_frameBytes (s : State) (n : Nat) : lineBits (s.frameBytes n) = s.encodeBits n :=
  (lineBits_pack _ _ (encodeBits_wholeBytes s n)).1

@[simp] theorem latchFill_length (s : State) : s.latchFill.length = s.derived.latchBytes.toNat :=
  List.length_replicate

theorem frameOutput_length (s : State) (n : Nat) (pre post : Bool) :
    (s.frameOutput n pre post).length = n * s.cfg.chanCount * s.cfg.patLen +
      (pre.toNat + post.toNat) * s.derived.latchBytes.toNat := by
  cases pre <;> cases post <;> simp [State.frameOutput] <;> ring

/-! ### Where a bit of the frame lies (rule R151) -/

/-- A list of pieces of one length: where place r of piece number m lies. -/
theorem flatMap_getElem? {α β : Type} (f : α → List β) {size : Nat} (hf : ∀ a, (f a).length = size)
    {xs : List α} {m r : Nat} {a : α} (hm : xs[m]? = some a) (hr : r < size) :
    (xs.flatMap f)[m * size + r]? = (f a)[r]? := by
  obtain ⟨hlt, rfl⟩ := List.getElem?_eq_some_iff.mp hm
  rw [← flatMap_piece f size hf xs m hlt, List.getElem?_take_of_lt hr, List.getElem?_drop]

/-- Place r of a byte's bits is its bit 7-r (rules R68 and R143). -/
theorem byteBits_getElem? (b : Byte) {r : Nat} (hr : r < 8) : (byteBits b)[r]? = some (b.getLsbD (7 - r)) := by
  interval_cases r <;> rfl

theorem patternBits_getElem? {L t : Nat} (ht : t < L) (p : Word) :
    (patternBits L p)[t]? = some (p.getLsbD (L - 1 - t)) := by
  simp [patternBits, ht]

theorem channelByte_getLsbD (w : Word) {j : Nat} (hj : j < 8) : (channelByte w).getLsbD j = w.getLsbD j := by
  simp [channelByte, hj]

/-- Physical bit q of output bytes is bit 7 - q mod 8 of byte q / 8 (rule R68). -/
theorem lineBits_getElem? {bytes : List Byte} {q : Nat} (hq : q / 8 < bytes.length) :
    (lineBits bytes)[q]? = some ((bytes.getD (q / 8) 0#8).getLsbD (7 - q % 8)) := by
  have hr : q % 8 < 8 := Nat.mod_lt q (by decide)
  have h := flatMap_getElem? byteBits byteBits_length (List.getElem?_eq_getElem hq) hr
  rw [Nat.div_add_mod', byteBits_getElem? _ hr] at h
  rw [lineBits, h, List.getD_eq_getElem _ _ hq]

/-- Bit t of the slot of logical bit j within the bits of one channel value (rules R143 and R144). -/
theorem channelBits_getElem? (s : State) (b : Byte) {j t : Nat} (hj : j < 8) (ht : t < s.cfg.patLen) :
    (s.channelBits b)[(7 - j) * s.cfg.patLen + t]? =
      some ((if b.getLsbD j then s.derived.pattern1 else s.derived.pattern0).getLsbD
        (s.cfg.patLen - 1 - t)) := by
  have hbit := byteBits_getElem? b (r := 7 - j) (by omega)
  rw [State.channelBits, flatMap_getElem? _ (slotBits_length s) hbit ht, State.slotBits,
    patternBits_getElem? ht, show 7 - (7 - j) = j by omega]

/-- The place of a bit within its channel value. -/
theorem slotBit_lt {L j t : Nat} (ht : t < L) : (7 - j) * L + t < 8 * L := by
  have := Nat.mul_le_mul_right L (show 7 - j ≤ 7 by omega)
  omega

theorem encodeBits_getElem? (s : State) {n i k j t : Nat} (hi : i < n) (hk : k < s.cfg.chanCount)
    (hj : j < 8) (ht : t < s.cfg.patLen) :
    (s.encodeBits n)[(i * s.cfg.chanCount + k) * s.cfg.patLen * 8 + ((7 - j) * s.cfg.patLen + t)]? =
      some ((if (s.pixWord i (s.cfg.ord k)).getLsbD j then s.derived.pattern1
        else s.derived.pattern0).getLsbD (s.cfg.patLen - 1 - t)) := by
  rw [show (i * s.cfg.chanCount + k) * s.cfg.patLen * 8 =
      (i * s.cfg.chanCount + k) * (8 * s.cfg.patLen) by ring, State.encodeBits,
    flatMap_getElem? _ (fun _ => channelBits_length s _) (walk_getElem? s.cfg n i k hi hk)
      (slotBit_lt ht),
    channelBits_getElem? s _ hj ht, channelByte_getLsbD _ hj]

/-! ### Where the bytes of a channel lie (rule R151) -/

/-- Pieces of whole bytes are packed one by one. -/
theorem pack_flatMap {α : Type} (f : α → List Bool) (k : Nat) (hf : ∀ a, (f a).length = 8 * k)
    (xs : List α) : pack (xs.flatMap f) = xs.flatMap fun a => pack (f a) := by
  induction xs with
  | nil => rfl
  | cons x xs ih => rw [List.flatMap_cons, pack_append k _ _ (hf x), ih, List.flatMap_cons]

/-- The L bytes of a channel value are its eight slots, packed on their own. -/
theorem frameBytes_channel (s : State) {n i k : Nat} (hi : i < n) (hk : k < s.cfg.chanCount) :
    ((s.frameBytes n).drop ((i * s.cfg.chanCount + k) * s.cfg.patLen)).take s.cfg.patLen =
      pack (s.channelBits (channelByte (s.pixWord i (s.cfg.ord k)))) := by
  obtain ⟨hplace, hword⟩ := List.getElem?_eq_some_iff.mp (walk_getElem? s.cfg n i k hi hk)
  rw [State.frameBytes, State.encodeBits,
    pack_flatMap _ s.cfg.patLen (fun _ => channelBits_length s _),
    flatMap_piece _ _ (fun _ => (lineBits_pack _ _ (channelBits_length s _)).2) _ _ hplace, hword]

theorem channelBits_congr {s u : State} (hcfg : u.cfg = s.cfg) (hder : u.derived = s.derived)
    (b : Byte) : u.channelBits b = s.channelBits b := by
  have hslot : u.slotBits = s.slotBits := funext fun v => by simp only [State.slotBits, hcfg, hder]
  rw [State.channelBits, hslot, State.channelBits]

/-! ### What a frame depends on (rule R153) -/

/-- While CONFIGURED = 1 the channel order names tuple indices below C only (rule R110, row 4). -/
theorem ord_lt_chanCount {s : State} (hinv : s.Inv) (hc : s.configured = true) {k : Nat}
    (hk : k < s.cfg.chanCount) : (s.cfg.ord k).toNat < s.cfg.chanCount := by
  obtain ⟨d, hd, -⟩ := hinv.configured_derived hc
  obtain ⟨hfield, -⟩ := derive_ok hd
  obtain ⟨-, -, -, -, hperm, -⟩ := fieldCheck_none hfield
  have hmem : (s.cfg.ord k).toNat ∈ s.cfg.order.map BitVec.toNat :=
    List.mem_map_of_mem (List.mem_map_of_mem (List.mem_range.mpr hk))
  exact List.mem_range.mp ((List.isPerm_iff.mp hperm).mem_iff.mp hmem)

section
variable {s u : State} {n : Nat} (hcfg : u.cfg = s.cfg)
  (hpix : ∀ p ∈ s.cfg.walk n, u.pixWord p.1 p.2 = s.pixWord p.1 p.2)
include hcfg hpix

theorem firstIllegal_congr : u.firstIllegal n = s.firstIllegal n := by
  simp only [State.firstIllegal, hcfg]
  exact List.find?_congr fun p hp => by rw [hpix p hp]

theorem frameBytes_congr (hder : u.derived = s.derived) : u.frameBytes n = s.frameBytes n := by
  simp only [State.frameBytes, State.encodeBits, hcfg]
  exact congrArg pack (List.flatMap_congr fun p hp => by rw [hpix p hp, channelBits_congr hcfg hder])

theorem frameOutput_congr (hder : u.derived = s.derived) (pre post : Bool) :
    u.frameOutput n pre post = s.frameOutput n pre post := by
  simp only [State.frameOutput, State.latchFill, frameBytes_congr hcfg hpix hder, hder]

end

/-! ### The latch around a frame (rules R148, R152 and R154) -/

theorem frameOutput_post (s : State) (n : Nat) (pre : Bool) :
    s.frameOutput n pre true = s.frameOutput n pre false ++ s.latchFill := by
  simp [State.frameOutput]

theorem frameOutput_pre (s : State) (n : Nat) :
    s.frameOutput n true false = s.latchFill ++ s.frameBytes n := by
  simp [State.frameOutput]

theorem frameOutput_zero (s : State) (pre post : Bool) :
    s.frameOutput 0 pre post =
      List.replicate ((pre.toNat + post.toNat) * s.derived.latchBytes.toNat) 0#8 := by
  have hempty : s.frameBytes 0 = [] := rfl
  cases pre <;> cases post <;> simp [State.frameOutput, State.latchFill, hempty, two_mul]

/-! ### What the commands answer (rules R148 and R171) -/

theorem exec_encodeFrame_countError {s : State} {n : Nat} (hc : s.configured = true)
    (hn : s.npixMax.toNat < n) (pre post : Bool) :
    exec (.encodeFrame n pre post) s = .next (s.finish .countError 0x2#4 []) := by
  simp [exec, execEncodeFrame, State.raiseCommandError, hc, hn]

theorem exec_encodeFrame_valueError {s : State} {n : Nat} {p : Nat × BitVec 2}
    (hc : s.configured = true) (hn : n ≤ s.npixMax.toNat) (hf : s.firstIllegal n = some p)
    (pre post : Bool) :
    exec (.encodeFrame n pre post) s = .next (s.raiseValueError p.1 p.2) := by
  simp [exec, execEncodeFrame, hc, hn, hf]

theorem exec_encodeFrame_ok {s : State} {n : Nat} (hc : s.configured = true)
    (hn : n ≤ s.npixMax.toNat) (hf : s.firstIllegal n = none) (pre post : Bool) :
    exec (.encodeFrame n pre post) s = .next (s.finish .ok 0x2#4 (s.frameOutput n pre post)) := by
  simp [exec, execEncodeFrame, hc, hn, hf]

theorem exec_generateLatch_configured {s : State} (hc : s.configured = true) :
    exec .generateLatch s = .next (s.finish .ok 0x3#4 s.latchFill) := by
  simp [exec, execGenerateLatch, hc]

/-- An ENCODE_FRAME that answers OK has passed the three checks and appended the frame. -/
theorem exec_encodeFrame_ok_inv {s t : State} {n : Nat} {pre post : Bool}
    (h : exec (.encodeFrame n pre post) s = .next t) (hok : t.resultCode = .ok) :
    s.configured = true ∧ n ≤ s.npixMax.toNat ∧ s.firstIllegal n = none ∧
      t = s.finish .ok 0x2#4 (s.frameOutput n pre post) := by
  rcases execEncodeFrame_cases n pre post s with ⟨-, e⟩ | ⟨-, -, e⟩ | ⟨p, -, -, -, e⟩ |
      ⟨hc, hn, hf, e⟩ <;>
    cases h.symm.trans e
  · cases hok
  · cases hok
  · cases hok
  · exact ⟨hc, hn, hf, rfl⟩

/-- The ValueError of rule R146 for the first illegal word in transmission order. -/
theorem exec_encodeFrame_firstIllegal {s : State} {n i k : Nat} (hc : s.configured = true)
    (hn : n ≤ s.npixMax.toNat) (hi : i < n) (hk : k < s.cfg.chanCount)
    (hbad : (s.pixWord i (s.cfg.ord k)).toInt < 0 ∨ 255 < (s.pixWord i (s.cfg.ord k)).toInt)
    (hbefore : ∀ i' k', k' < s.cfg.chanCount → (i' < i ∨ (i' = i ∧ k' < k)) →
      0 ≤ (s.pixWord i' (s.cfg.ord k')).toInt ∧ (s.pixWord i' (s.cfg.ord k')).toInt ≤ 255)
    (pre post : Bool) :
    exec (.encodeFrame n pre post) s = .next (s.raiseValueError i (s.cfg.ord k)) :=
  exec_encodeFrame_valueError hc hn (firstIllegal_eq_some hi hk ((channelLegal_eq_false_iff _).mpr hbad)
    fun i' k' hk' hlt => (channelLegal_iff _).mpr (hbefore i' k' hk' hlt)) pre post

theorem raiseValueError_eq (s : State) (i : Nat) (ch : BitVec 2) :
    s.raiseValueError i ch = { s with
      valErrPixel := BitVec.ofNat 16 i
      valErrChannel := ch
      resultCode := .valueError
      lastOp := 0x2#4
      outLen := 0#32
      pending := none } := by
  rw [State.raiseValueError, finish_nil]
  rfl

/-- A pixel of the memory fits VAL_ERR_PIXEL (rule R27). -/
theorem raiseValueError_valErrPixel (s : State) {i : Nat} (hi : i < s.npixMax.toNat) (ch : BitVec 2) :
    (s.raiseValueError i ch).readReg .valErrPixel = BitVec.ofNat 32 i := by
  have hnpix := s.npixMax.isLt
  exact BitVec.setWidth_ofNat_of_le_of_lt (show 16 ≤ 32 by decide) (by omega)

/-! ### The obligations -/

/-- Settles O27: the word by its row of the opcode map, then one answer of the command for each outcome of its
checks. -/
theorem encodeFrameOutcomes : Obligations.EncodeFrameOutcomes := by
  refine ⟨fun w hw => decode_of_encodeFrame_selected hw, fun s n pre post =>
    ⟨fun hc => ?_, fun hc hn => ?_, fun hc hn i k hi hk hbad hbefore => ?_, fun hc hn hlegal => ?_⟩⟩
  · rw [exec_encodeFrame_unconfigured hc, finish_nil]
  · rw [exec_encodeFrame_countError hc hn, finish_nil]
  · rw [exec_encodeFrame_firstIllegal hc hn hi hk hbad hbefore, raiseValueError_eq]
  · exact exec_encodeFrame_ok hc hn
      (firstIllegal_eq_none fun i k hi hk => (channelLegal_iff _).mpr (hlegal i k hi hk)) pre post

/-- Settles O28: the reported word is the one `State.firstIllegal` finds, and its pixel index fits the register. -/
theorem valueErrorNamesFirstIllegalWord : Obligations.ValueErrorNamesFirstIllegalWord := by
  intro s n i k pre post hc hn hi hk hbad hbefore
  exact ⟨_, exec_encodeFrame_firstIllegal hc hn hi hk hbad hbefore pre post,
    raiseValueError_valErrPixel s (by omega) _, rfl,
    (finish_readReg_result _ .valueError 0x2#4 []).trans (by decide), rfl, raiseValueError_eq s i _⟩

/-- Settles O29: N · C channels of eight slots of L bits each, packed without a remainder. -/
theorem frameSizeLaw : Obligations.FrameSizeLaw := by
  intro s t n pre post h hok
  obtain ⟨-, -, -, rfl⟩ := exec_encodeFrame_ok_inv h hok
  refine ⟨?_, frameBytes_length s n, encodeBits_length s n⟩
  rw [State.finish_out, List.length_append, frameOutput_length, ← add_assoc]
  rfl

/-- Settles O30: the line carries the bit stream, in which each piece has a fixed place; and a channel's bytes are
its eight slots, packed on their own. -/
theorem frameBitPlacement : Obligations.FrameBitPlacement := by
  refine ⟨fun s n i k j t hi hk hj ht => ?_, fun s u n i k hi hk hcfg hder hbyte => ?_⟩
  · intro q
    have hbit := encodeBits_getElem? s hi hk hj ht
    have hq : q < (s.encodeBits n).length := (List.getElem?_eq_some_iff.mp hbit).1
    rw [encodeBits_wholeBytes] at hq
    have hline := lineBits_getElem? (bytes := s.frameBytes n) (q := q)
      (by rw [frameBytes_length]; omega)
    rw [lineBits_frameBytes] at hline
    exact Option.some.inj (hline.symm.trans hbit)
  · have hu := frameBytes_channel u hi (hcfg ▸ hk)
    rw [hcfg, hbyte, channelBits_congr hcfg hder] at hu
    exact hu.trans (frameBytes_channel s hi hk).symm

/-- Settles O31: the empty frame has no word to check and no byte of its own. -/
theorem emptyFrameIsNoError : Obligations.EmptyFrameIsNoError := by
  intro s pre post hc
  have hexec := exec_encodeFrame_ok hc (Nat.zero_le _) (rfl : s.firstIllegal 0 = none) pre post
  rw [frameOutput_zero] at hexec
  refine ⟨_, hexec, (finish_readReg_result _ .ok 0x2#4 _).trans (by decide), rfl, ?_⟩
  rintro rfl rfl
  simp [State.readReg]

/-- Settles O32: each outcome of the first state's command is decided by what the two states share; under the
invariant the walk meets only words with c < C. -/
theorem encodeFrameIsDeterministic : Obligations.EncodeFrameIsDeterministic := by
  intro s u n pre post hinv hcon hcfg hder hnpix hwords
  have hpix (hc : s.configured = true) : ∀ p ∈ s.cfg.walk n, u.pixWord p.1 p.2 = s.pixWord p.1 p.2 := by
    rintro ⟨i, ch⟩ hp
    obtain ⟨hi, k, hk, rfl⟩ := mem_walk.mp hp
    exact hwords i _ hi (ord_lt_chanCount hinv hc hk)
  rcases execEncodeFrame_cases n pre post s with
    ⟨hc, hs⟩ | ⟨hc, hn, hs⟩ | ⟨p, hc, hn, hf, hs⟩ | ⟨hc, hn, hf, hs⟩
  · have hu := exec_encodeFrame_unconfigured (hcon.trans hc) n pre post
    exact ⟨_, _, [], hs, hu, rfl, rfl, rfl, rfl, nofun, rfl⟩
  · have hu := exec_encodeFrame_countError (hcon.trans hc) (hnpix ▸ hn) pre post
    exact ⟨_, _, [], hs, hu, rfl, rfl, rfl, rfl, nofun, rfl⟩
  · have hu := exec_encodeFrame_valueError (hcon.trans hc) (hnpix ▸ hn)
      ((firstIllegal_congr hcfg (hpix hc)).trans hf) pre post
    exact ⟨_, _, [], hs, hu, rfl, rfl, rfl, rfl, fun _ => ⟨rfl, rfl⟩, rfl⟩
  · have hu := exec_encodeFrame_ok (hcon.trans hc) (hnpix ▸ hn)
      ((firstIllegal_congr hcfg (hpix hc)).trans hf) pre post
    rw [frameOutput_congr hcfg (hpix hc) hder] at hu
    exact ⟨_, _, _, hs, hu, rfl, rfl, rfl, rfl, nofun, rfl⟩

/-- Settles O33: the frame command keeps LATCH_BYTES, so GENERATE_LATCH appends the zeros that POST would. -/
theorem frameThenLatchEqualsPost : Obligations.FrameThenLatchEqualsPost := by
  intro s t n pre h hok
  obtain ⟨hc, hn, hf, rfl⟩ := exec_encodeFrame_ok_inv h hok
  refine ⟨_, _, exec_generateLatch_configured hc, exec_encodeFrame_ok hc hn hf pre true, rfl, rfl, ?_, ?_⟩
  · rw [State.finish_out, frameOutput_post, ← List.append_assoc]
    rfl
  · rintro rfl
    refine ⟨s.frameBytes n, ?_, frameBytes_length s n⟩
    rw [State.finish_out, frameOutput_pre, ← List.append_assoc]
    rfl

end Sys2Proof.Machine
end

section
/-! PROOFS. The family 42_latch_generator: the latch count is the least number of bytes that last long enough
(rules R170 and R172), and what GENERATE_LATCH answers (rule R171). The obligations stand last. -/

namespace Sys2Proof.Machine

/-! ### The latch count (rules R170 and R172) -/

/-- Rule R12's rounding up is Mathlib's, so it is the least multiple that reaches. -/
theorem ceilDiv_le_iff {a b n : Nat} (hb : 0 < b) : ceilDiv a b ≤ n ↔ a ≤ b * n := by
  have h : ceilDiv a b = a ⌈/⌉ b := by
    rw [Nat.ceilDiv_eq_add_pred_div, ceilDiv, show b - 1 + a = a + b - 1 by omega]
  rw [h, ceilDiv_le_iff_le_mul hb]

/-- The shortest latch allowed: TLL_MIN times the safety factor, in ns (rule R170). -/
def ConfigRegs.latchMinNs (c : ConfigRegs) : ℚ := (c.tllMin.toNat : ℚ) * c.latchSf.toNat / 256

/-- A latch of n bytes lasts long enough exactly from the latch count on. -/
theorem latchMinNs_le_iff {c : ConfigRegs} (hrate : 0 < c.bitRateHz.toNat) (n : Nat) :
    c.latchMinNs ≤ 8 * (n : ℚ) * c.bitPeriodNs ↔ c.latchCount ≤ n := by
  have hbits : c.latchMinNs ≤ 8 * (n : ℚ) * c.bitPeriodNs ↔
      ((c.tllMin.toNat * c.latchSf.toNat : Nat) : ℚ) ≤ (2048 * n : Nat) * c.bitPeriodNs := by
    rw [ConfigRegs.latchMinNs, div_le_iff₀ (by norm_num : (0 : ℚ) < 256)]
    push_cast
    rw [show 8 * (n : ℚ) * c.bitPeriodNs * 256 = 2048 * n * c.bitPeriodNs by ring]
  rw [hbits, time_le_bits_iff hrate, ConfigRegs.latchCount, ceilDiv_le_iff (by decide)]
  simp only [Config.latchSfOne, Config.nsPerSecond]
  omega

/-- The safety factor is no less than 1 (rule R110, row 5). -/
theorem tllMin_le_latchMinNs {c : ConfigRegs} (h : c.fieldCheck = none) :
    (c.tllMin.toNat : ℚ) ≤ c.latchMinNs := by
  obtain ⟨-, -, -, -, -, hsf, -⟩ := fieldCheck_none h
  rw [ConfigRegs.latchMinNs, le_div_iff₀ (by norm_num : (0 : ℚ) < 256)]
  exact_mod_cast Nat.mul_le_mul_left _ hsf

/-- One byte fewer than a positive latch count is too short. -/
theorem lt_latchMinNs_of_pos {c : ConfigRegs} (hrate : 0 < c.bitRateHz.toNat) (hpos : 0 < c.latchCount) :
    ((c.latchCount : ℚ) - 1) * 8 * c.bitPeriodNs < c.latchMinNs := by
  have h : ¬ c.latchMinNs ≤ 8 * ((c.latchCount - 1 : Nat) : ℚ) * c.bitPeriodNs := by
    rw [latchMinNs_le_iff hrate]
    omega
  rwa [not_le, Nat.cast_pred hpos, mul_comm 8] at h

/-- LATCH_BYTES holds the latch count without wrapping (rule R110, row 6). -/
theorem installConfiguration_latchBytes {s : State} {d : Derivation} (h : s.cfg.derive = .ok d) :
    (s.installConfiguration d).derived.latchBytes.toNat = s.cfg.latchCount := by
  obtain ⟨hfield, -, -, -, rfl⟩ := derive_ok h
  obtain ⟨-, -, -, -, -, -, hlatch⟩ := fieldCheck_none hfield
  exact Nat.mod_eq_of_lt (hlatch.trans_lt (by decide))

/-! ### What GENERATE_LATCH writes (rule R171) -/

/-- OUT_LEN receives LATCH_BYTES itself. -/
theorem finish_latchFill (s : State) (code : ResultCode) (op : BitVec 4) :
    s.finish code op s.latchFill = { s with
      out := s.out ++ List.replicate s.derived.latchBytes.toNat 0x00#8
      outLen := s.derived.latchBytes
      resultCode := code
      lastOp := op
      pending := none } := by
  rw [State.finish, latchFill_length, BitVec.ofNat_toNat, BitVec.setWidth_eq]
  rfl

/-! ### The obligations -/

/-- Settles O26: the count in LATCH_BYTES is the least that lasts long enough, and the safety factor is at
least 1. -/
theorem latchIsLeastSufficient : Obligations.LatchIsLeastSufficient := by
  intro s d hc hd
  obtain ⟨hfield, -⟩ := derive_ok hd
  have hrate := bitRate_pos hfield
  have hcfg : (s.installConfiguration d).cfg = s.cfg := rfl
  have hlong : s.cfg.latchMinNs ≤ (s.installConfiguration d).latchNs := by
    rw [State.latchNs, hcfg, installConfiguration_latchBytes hd]
    exact (latchMinNs_le_iff hrate _).mpr le_rfl
  refine ⟨_, exec_configure_ok hc hd, hlong, ?_, (tllMin_le_latchMinNs hfield).trans hlong⟩
  rw [installConfiguration_latchBytes hd]
  exact lt_latchMinNs_of_pos hrate

/-- Settles O35: the word by the decoder, then one answer of the command for each value of CONFIGURED. -/
theorem generateLatchEmitsZeros : Obligations.GenerateLatchEmitsZeros := by
  refine ⟨by decide, fun s hc => ?_, fun s hc => ?_⟩
  · rw [exec_generateLatch_configured hc, finish_latchFill]
  · rw [exec_generateLatch_unconfigured hc, finish_nil]

end Sys2Proof.Machine
end

section
/-! PROOFS. The family 43_control_commands: what a pending word stands against (rule R187), and the control
commands NOP, CLEAR_ERROR and SOFT_RESET (rules R181, R183 and R185). First the Host and the Encoder at a pending
word, then what the commands write, then the obligations. -/

namespace Sys2Proof.Machine

/-! ### The Host while a word is pending -/

theorem busy_of_pending {s : State} {w : Word} (hp : s.pending = some w) : s.busy = true := by
  simp [State.busy, hp]

theorem memWrite_of_pending {s : State} {w : Word} (hp : s.pending = some w) (addr : BusAddr) (v : Word) :
    s.memWrite addr v = { s with busyViolation := true } :=
  memWrite_busy (busy_of_pending hp) addr v

/-- No statement of a Host program replaces the pending word (rule R187). -/
theorem hostTurn_pending {s : State} {w : Word} (hp : s.pending = some w) :
    s.hostTurn.pending = some w := by
  rcases hostTurn_cases s with ⟨a, h⟩ | ⟨addr, v, a, -, h⟩
  · rw [h, hp]
  · rw [h, memWrite_of_pending hp, hp]

/-! ### The Encoder's turn on a pending word -/

theorem encoderTurn_of_decode {s : State} {w : Word} {i : Instr} (hp : s.pending = some w)
    (hd : decode w = .ok i) : s.encoderTurn = exec i s := by
  simp [State.encoderTurn, runWord, hp, hd]

/-- The OP of an illegal word is its low four bits, as that of a command is (rule R85). -/
theorem opField_of_decode_illegal {w : Word} {op : BitVec 4} (h : decode w = .error (.illegal op)) :
    opField w = op := by
  unfold decode at h
  split_ifs at h
  cases h
  rfl

/-- The Encoder's turn ends the pending word, a command or not, and reports its OP (rules R23 and R43). -/
theorem encoderTurn_completes {s : State} {w : Word} (hp : s.pending = some w) :
    ∃ t, s.encoderTurn = .next t ∧ t.pending = none ∧ t.lastOp = opField w := by
  cases hd : decode w with
  | ok i =>
    obtain ⟨t, -, ht, hpend, hop, -⟩ := exec_answers i s
    exact ⟨t, (encoderTurn_of_decode hp hd).trans ht, hpend,
      hop.trans (opField_of_selectedBy (selectedBy_of_decode hd)).symm⟩
  | error e =>
    obtain ⟨op⟩ := e
    exact ⟨_, encoderTurn_of_illegal hp hd, rfl, (opField_of_decode_illegal hd).symm⟩

/-! ### What the control commands answer -/

theorem exec_nop (s : State) : exec .nop s = .next (s.finish .ok 0x0#4 []) := rfl

theorem exec_clearError (s : State) :
    exec .clearError s =
      .next (((s.clearSticky.setCfgErr none 0#32).setValErr 0#16 0#2).finish .ok 0x4#4 []) := rfl

theorem exec_softReset (s : State) : exec .softReset s = .next (s.resetRegisters.finish .ok 0x5#4 []) := rfl

/-- CLEAR_ERROR does not see the sticky flag that a dropped write sets (rule R183). -/
theorem exec_clearError_setBusyViolation (s : State) (b : Bool) :
    exec .clearError { s with busyViolation := b } = exec .clearError s := rfl

theorem ConfigRegs.reset_get (r : ConfigReg) : ConfigRegs.reset.get r = 0#32 := by
  cases r <;> rfl

theorem statusWord_eq_zero {s : State} (hbusy : s.busy = false) (hconf : s.configured = false)
    (hlock : s.lockViolation = false) (hdrop : s.busyViolation = false) : s.statusWord = 0#32 := by
  rw [State.statusWord, hbusy, hconf, hlock, hdrop]
  decide

/-- After SOFT_RESET every register but NPIX_MAX and RESULT reads 0; STATUS does because nothing is pending
any more (rule R185). -/
theorem readReg_softReset (s : State) (code : ResultCode) (op : BitVec 4) {r : Reg} (hnpix : r ≠ .npixMax)
    (hresult : r ≠ .result) : (s.resetRegisters.finish code op []).readReg r = 0#32 := by
  cases r with
  | npixMax => exact absurd rfl hnpix
  | result => exact absurd rfl hresult
  | config r => exact ConfigRegs.reset_get r
  | status => exact statusWord_eq_zero rfl rfl rfl rfl
  | _ => rfl

/-- An unconfigured block refuses a frame: NOT_CONFIGURED, and nothing emitted (rule R206). -/
theorem exec_encodeFrame_refused {s : State} (hc : s.configured = false) (n : Nat) (pre post : Bool) :
    ∃ u, exec (.encodeFrame n pre post) s = .next u ∧ u.readReg .result = 0x00000203#32 ∧
      u.out = s.out :=
  ⟨_, exec_encodeFrame_unconfigured hc n pre post,
    (finish_readReg_result s .notConfigured 0x2#4 []).trans (by decide), List.append_nil s.out⟩

/-- An unconfigured block refuses a latch: NOT_CONFIGURED, and nothing emitted (rule R206). -/
theorem exec_generateLatch_refused {s : State} (hc : s.configured = false) :
    ∃ u, exec .generateLatch s = .next u ∧ u.readReg .result = 0x00000303#32 ∧ u.out = s.out :=
  ⟨_, exec_generateLatch_unconfigured hc,
    (finish_readReg_result s .notConfigured 0x3#4 []).trans (by decide), List.append_nil s.out⟩

/-! ### The obligations -/

/-- Settles O53, turn by turn: the Host keeps the word, the Encoder ends it, hardware reset discards it. -/
theorem pendingCommandIsNeverReplaced : Obligations.PendingCommandIsNeverReplaced := by
  intro s t w hp h
  have hp' : s.popTurn.pending = some w := hp
  rcases step_next_cases h with ⟨hn, rfl⟩ | ⟨hn, h⟩ | ⟨hn, rfl⟩
  · simp [hn, hostTurn_pending hp']
  · obtain ⟨t', h', hpend, hop⟩ := encoderTurn_completes hp'
    cases h'.symm.trans h
    simp [hn, hpend, hop, opField]
  · simp [hn]

/-- Settles O13: NOP is the bare completion; its word is pending from its CMD write on, so a write in that
window is dropped. -/
theorem nopOnlyReportsOk : Obligations.NopOnlyReportsOk := by
  refine ⟨by decide, fun s => ?_, fun s hb => ?_, fun s addr v hp => memWrite_of_pending hp addr v⟩
  · rw [exec_nop, finish_nil]
  · rw [memWrite_cmd hb rfl]
    rfl

/-- Settles O14: a write dropped while CLEAR_ERROR is pending changes one sticky flag, which the command
does not see. -/
theorem clearErrorClearsFlagsAndDetails : Obligations.ClearErrorClearsFlagsAndDetails := by
  have hd : decode 0x00000004#32 = .ok .clearError := by decide
  refine ⟨hd, fun s => ?_, fun s addr v hp => ?_⟩
  · rw [exec_clearError, finish_nil]
    rfl
  · have hp' : ({ s with busyViolation := true } : State).pending = some 0x00000004#32 := hp
    rw [memWrite_of_pending hp]
    exact ⟨rfl, by rw [encoderTurn_of_decode hp' hd, encoderTurn_of_decode hp hd,
      exec_clearError_setBusyViolation]⟩

/-- Settles O15: the state after SOFT_RESET field by field, the refusals of an unconfigured block, and the
configuration lock (O47), which only hardware reset and SOFT_RESET open. -/
theorem softResetResetsRegisters : Obligations.SoftResetResetsRegisters := by
  obtain ⟨-, hunlock, -⟩ := configurationLock
  refine ⟨by decide, fun s => ?_, hunlock⟩
  refine ⟨_, exec_softReset s, fun r _ hnpix hresult => readReg_softReset s .ok 0x5#4 hnpix hresult, ?_, rfl,
    rfl, rfl, fun _ => rfl, List.append_nil s.out, rfl, rfl,
    fun n pre post => exec_encodeFrame_refused rfl n pre post, exec_generateLatch_refused rfl⟩
  exact (finish_readReg_result s.resetRegisters .ok 0x5#4 []).trans (by decide)

end Sys2Proof.Machine
end

section
/-! PROOFS. The family 60_exceptions: a command that raises an error writes RESULT, OUT_LEN and the detail registers
of its own error (rules R204 and R206 to R208). First the three ways a command can fail, then the obligations. -/

namespace Sys2Proof.Machine

/-! ### The ways a command can fail (rule R201) -/

/-- A command that does not answer OK has raised a CommandError, the ConfigurationError of an unconfigured
CONFIGURE, or the ValueError of an ENCODE_FRAME. -/
theorem exec_failure_cases {i : Instr} {s t : State} (h : exec i s = .next t) (hfail : t.resultCode ≠ .ok) :
    (∃ code, t = s.finish code i.op []) ∨
    (i = .configure ∧ s.configured = false ∧ ∃ f, t = s.raiseConfigurationError f) ∨
    (∃ n pre post pixel channel, i = .encodeFrame n pre post ∧ t = s.raiseValueError pixel channel) := by
  cases i with
  | nop => cases h; exact absurd rfl hfail
  | configure =>
    rcases execConfigure_cases s with ⟨-, e⟩ | ⟨f, hc, -, e⟩ | ⟨d, -, -, e⟩ <;> cases h.symm.trans e
    · exact .inl ⟨_, rfl⟩
    · exact .inr (.inl ⟨rfl, hc, f, rfl⟩)
    · exact absurd rfl hfail
  | encodeFrame n pre post =>
    rcases execEncodeFrame_cases n pre post s with ⟨-, e⟩ | ⟨-, -, e⟩ | ⟨p, -, -, -, e⟩ | ⟨-, -, -, e⟩ <;>
      cases h.symm.trans e
    · exact .inl ⟨_, rfl⟩
    · exact .inl ⟨_, rfl⟩
    · exact .inr (.inr ⟨n, pre, post, _, _, rfl, rfl⟩)
    · exact absurd rfl hfail
  | generateLatch =>
    rcases execGenerateLatch_cases s with ⟨-, e⟩ | ⟨-, e⟩ <;> cases h.symm.trans e
    · exact .inl ⟨_, rfl⟩
    · exact absurd rfl hfail
  | clearError => cases h; exact absurd rfl hfail
  | softReset => cases h; exact absurd rfl hfail

/-- Where the derived registers are 0 already, a ConfigurationError writes its detail registers, RESULT and OUT_LEN
only (rules R121 and R204). -/
theorem raiseConfigurationError_eq {s : State} (hd : s.derived = .reset) (f : CfgFailure) :
    s.raiseConfigurationError f = { s with
      cfgErrCode := some f.error
      cfgErrDelta := f.delta
      resultCode := .cfgError
      lastOp := 0x1#4
      outLen := 0#32
      pending := none } := by
  rw [State.raiseConfigurationError, finish_nil, ← hd]
  rfl

/-! ### The obligations -/

/-- Settles O39, by the way the command failed: a ConfigurationError zeroes derived registers that the invariant
says are 0, and every other failure is a bare completion. -/
theorem failedCommandHasNoPartialEffect : Obligations.FailedCommandHasNoPartialEffect := by
  refine ⟨fun s t i hinv h hfail => ?_, fun s w op hp hd => ?_⟩
  · rcases exec_failure_cases h hfail with ⟨code, rfl⟩ | ⟨rfl, hc, f, rfl⟩ |
      ⟨n, pre, post, pixel, channel, rfl, rfl⟩
    · exact ⟨finish_nil s code i.op, fun _ => ⟨rfl, rfl⟩, fun _ => ⟨rfl, rfl⟩⟩
    · exact ⟨raiseConfigurationError_eq (hinv.unconfigured_derived hc) f, fun hne => absurd rfl hne,
        fun _ => ⟨rfl, rfl⟩⟩
    · exact ⟨raiseValueError_eq s pixel channel, fun _ => ⟨rfl, rfl⟩, fun hne => absurd rfl hne⟩
  · rw [encoderTurn_of_illegal hp hd, finish_nil]

/-- Settles O38: each of the four answers is a completion that emits nothing. -/
theorem commandErrorsWriteResultOnly : Obligations.CommandErrorsWriteResultOnly := by
  refine ⟨fun s n pre post hc => ⟨?_, ?_⟩, fun s n pre post hc hn => ?_, fun s hc => ?_⟩
  · rw [exec_encodeFrame_unconfigured hc, finish_nil]
  · rw [exec_generateLatch_unconfigured hc, finish_nil]
  · rw [exec_encodeFrame_countError hc hn, finish_nil]
  · rw [exec_configure_configured hc, finish_nil]

end Sys2Proof.Machine
end


section
/-! PROOFS. The family other, the derivation and the line: the derived registers field by field (rules R38, R39,
R44 and R170), the frame read back slot by slot (rule R160), the low run and the time of what is emitted (rules
R176, R250 and R251), the rate too coarse for the T0H window (rule R117), the configuration bits no check reads
(rule R32) and the order of the errors (rule R210). The obligations stand last. -/

namespace Sys2Proof.Machine

/-! ### The derived registers of a derivation that succeeds (rules R38, R39 and R44) -/

/-- Bit k of a register made of at most 32 bits is the bit k places before the last one (rule R38). -/
theorem getLsbD_ofNat_bitsToNat {bits : List Bool} (hlen : bits.length ≤ 32) {k : Nat}
    (hk : k < bits.length) :
    (BitVec.ofNat 32 (bitsToNat bits)).getLsbD k = bits[bits.length - 1 - k]'(by omega) := by
  rw [BitVec.getLsbD_ofNat, testBit_bitsToNat bits k hk, decide_eq_true (by omega), Bool.true_and]

theorem getLsbD_ofNat_bitsToNat_of_le {bits : List Bool} {k : Nat} (hk : bits.length ≤ k) :
    (BitVec.ofNat 32 (bitsToNat bits)).getLsbD k = false := by
  rw [BitVec.getLsbD_ofNat, Nat.testBit_lt_two_pow, Bool.and_false]
  exact (bitsToNat_lt bits).trans_le (Nat.pow_le_pow_right (by decide) hk)

/-- The four bytes of a register made of four counts that fit their bytes (rule R39). -/
theorem ofInt_bytes {a b c d : Nat} (ha : a < 256) (hb : b < 256) (hc : c < 256) (hd : d < 256) :
    let w := BitVec.ofInt 32 ((a : Int) + 2 ^ 8 * (b : Int) + 2 ^ 16 * (c : Int) + 2 ^ 24 * (d : Int))
    (w.extractLsb' 0 8).toNat = a ∧ (w.extractLsb' 8 8).toNat = b ∧
      (w.extractLsb' 16 8).toNat = c ∧ (w.extractLsb' 24 8).toNat = d := by
  intro w
  have hw : w.toNat = a + 256 * b + 65536 * c + 16777216 * d := by
    simp only [w, BitVec.toNat_ofInt]
    omega
  simp only [BitVec.extractLsb'_toNat, Nat.shiftRight_eq_div_pow, hw, Nat.reducePow]
  omega

/-- A pattern register as a bit list is the list that was written to it (rules R38 and R140). -/
theorem patternBits_ofNat_bitsToNat {bits : List Bool} (hlen : bits.length ≤ 32) :
    patternBits bits.length (BitVec.ofNat 32 (bitsToNat bits)) = bits := by
  refine List.ext_getElem (patternBits_length _ _) fun t ht ht' => ?_
  have hplace : bits.length - 1 - (bits.length - 1 - t) = t := by omega
  simp only [patternBits, List.getElem_map, List.getElem_range]
  rw [getLsbD_ofNat_bitsToNat hlen (by omega)]
  simp only [hplace]

theorem patternOf_getElem {c : ConfigRegs} {v : Bool} {k : Nat} (hk : k < (c.patternOf v).length) :
    (c.patternOf v)[k] = decide (k < c.highBitsOf v) := by
  simp only [ConfigRegs.patternOf, List.getElem_append, List.getElem_replicate, List.length_replicate]
  split_ifs with h <;> simp [h]

/-- The register that holds `pat_v`. -/
def Derivation.patternReg (d : Derivation) (v : Bool) : Word :=
  if v then d.regs.pattern1 else d.regs.pattern0

section
variable {c : ConfigRegs} {d : Derivation} (h : c.derive = .ok d)
include h

theorem boundCheck_of_derive (v : Bool) : c.boundCheck v = none := by
  obtain ⟨-, h0, h1, -⟩ := derive_ok h
  cases v
  · exact h0
  · exact h1

theorem eq_of_highBitsOf_eq {v v' : Bool} (heq : c.highBitsOf v = c.highBitsOf v') : v = v' := by
  obtain ⟨-, -, -, hne, -⟩ := derive_ok h
  cases v <;> cases v'
  · rfl
  · exact absurd heq hne
  · exact absurd heq.symm hne
  · rfl

theorem patLen_le_of_derive : c.patLen ≤ 32 := by
  obtain ⟨hfield, -⟩ := derive_ok h
  exact patternLen_le hfield

theorem patternOf_length_of_derive (v : Bool) : (c.patternOf v).length = c.patLen :=
  patternOf_length (boundCheck_of_derive h v)

theorem patternReg_eq (v : Bool) : d.patternReg v = BitVec.ofNat 32 (bitsToNat (c.patternOf v)) := by
  obtain ⟨-, -, -, -, rfl⟩ := derive_ok h
  cases v <;> rfl

/-- Bit L-1-k of a pattern register is 1 exactly where k is below the high count (rules R38 and R105). -/
theorem patternReg_getLsbD (v : Bool) {k : Nat} (hk : k < c.patLen) :
    (d.patternReg v).getLsbD (c.patLen - 1 - k) = decide (k < c.highBitsOf v) := by
  have hlen := patternOf_length_of_derive h v
  have hle := patLen_le_of_derive h
  have hplace : (c.patternOf v).length - 1 - (c.patLen - 1 - k) = k := by omega
  rw [patternReg_eq h, getLsbD_ofNat_bitsToNat (by omega) (by omega), patternOf_getElem, hplace]

theorem patternReg_getLsbD_of_le (v : Bool) {k : Nat} (hk : c.patLen ≤ k) :
    (d.patternReg v).getLsbD k = false := by
  rw [patternReg_eq h, getLsbD_ofNat_bitsToNat_of_le]
  rwa [patternOf_length_of_derive h]

theorem patternBits_patternReg (v : Bool) : patternBits c.patLen (d.patternReg v) = c.patternOf v := by
  have hlen := patternOf_length_of_derive h v
  rw [patternReg_eq h, ← hlen]
  exact patternBits_ofNat_bitsToNat (hlen.trans_le (patLen_le_of_derive h))

/-- The low count as a natural number: the low bound check refuses a negative one (rule R113). -/
theorem lowBitsOf_eq (v : Bool) : c.lowBitsOf v = ((c.patLen - c.highBitsOf v : Nat) : Int) := by
  have hfit := counts_fit (boundCheck_of_derive h v)
  simp only [ConfigRegs.lowBitsOf, ConfigRegs.patLen] at *
  omega

theorem highBitsOf_le (v : Bool) : c.highBitsOf v ≤ 32 :=
  (counts_fit (boundCheck_of_derive h v)).1.trans (patLen_le_of_derive h)

/-- The four counts lie in 0 to 32, so HIGH_BITS holds them without a carry (rule R39). -/
theorem highBits_bytes :
    (d.regs.highBits.extractLsb' 0 8).toNat = c.highBitsOf false ∧
      (d.regs.highBits.extractLsb' 8 8).toNat = c.highBitsOf true ∧
      (d.regs.highBits.extractLsb' 16 8).toNat = c.patLen - c.highBitsOf false ∧
      (d.regs.highBits.extractLsb' 24 8).toNat = c.patLen - c.highBitsOf true := by
  have hle := patLen_le_of_derive h
  have h0 := highBitsOf_le h false
  have h1 := highBitsOf_le h true
  have hl0 := lowBitsOf_eq h false
  have hl1 := lowBitsOf_eq h true
  obtain ⟨-, -, -, -, rfl⟩ := derive_ok h
  simp only [Derivation.regs, hl0, hl1]
  exact ofInt_bytes (by omega) (by omega) (by omega) (by omega)

end

/-- The low count v of HIGH_BITS. -/
def State.lowField (s : State) (v : Bool) : Nat := if v then s.low1Field else s.low0Field

/-- The high count v of HIGH_BITS. -/
def State.highField (s : State) (v : Bool) : Nat := if v then s.h1Field else s.h0Field

section
variable {s : State} {d : Derivation} (h : s.cfg.derive = .ok d) (hs : s.derived = d.regs)
include h hs

theorem highField_eq (v : Bool) : s.highField v = s.cfg.highBitsOf v := by
  obtain ⟨h0, h1, -, -⟩ := highBits_bytes h
  rw [← hs] at h0 h1
  cases v
  · exact h0
  · exact h1

theorem lowField_eq (v : Bool) : s.lowField v = s.cfg.patLen - s.cfg.highBitsOf v := by
  obtain ⟨-, -, h0, h1⟩ := highBits_bytes h
  rw [← hs] at h0 h1
  cases v
  · exact h0
  · exact h1

/-- A slot of the line carries the pattern of its logical bit (rule R144). -/
theorem slotBits_eq (v : Bool) : s.slotBits v = s.cfg.patternOf v := by
  rw [← patternBits_patternReg h v, State.slotBits, hs, Derivation.patternReg]

end

/-! ### The frame as logical bits (rules R143, R144 and R160) -/

/-- The logical bits of a frame in the order of the line: the bytes of the walked words, bit 7 first (rules R142
and R143). -/
def State.logicalBits (s : State) (n : Nat) : List Bool :=
  (s.cfg.walk n).flatMap fun p => byteBits (channelByte (s.pixWord p.1 p.2))

/-- The bit stream is one slot for each logical bit (rule R147). -/
theorem encodeBits_eq_slots (s : State) (n : Nat) :
    s.encodeBits n = (s.logicalBits n).flatMap s.slotBits :=
  List.flatMap_assoc.symm

theorem slotAt_encodeBits {s : State} {n m : Nat} {v : Bool} (hm : (s.logicalBits n)[m]? = some v) :
    slotAt s.cfg.patLen (s.encodeBits n) m = s.slotBits v := by
  obtain ⟨hlt, rfl⟩ := List.getElem?_eq_some_iff.mp hm
  rw [encodeBits_eq_slots]
  exact flatMap_piece s.slotBits _ (slotBits_length s) _ m hlt

/-- Logical bit t of channel value number m of the walk (rule R160). -/
theorem logicalBits_getElem? {s : State} {n m t : Nat} {p : Nat × BitVec 2}
    (hm : (s.cfg.walk n)[m]? = some p) (ht : t < 8) :
    (s.logicalBits n)[8 * m + t]? = (byteBits (channelByte (s.pixWord p.1 p.2)))[t]? := by
  rw [mul_comm]
  exact flatMap_getElem? _ (fun _ => byteBits_length _) hm ht

theorem byteBits_eq_concat (b : Byte) :
    byteBits b = [7, 6, 5, 4, 3, 2, 1].map b.getLsbD ++ [b.getLsbD 0] := rfl

/-- The last logical bit of a frame is bit 0 of the last pixel's last channel in transmission order. -/
theorem logicalBits_eq_concat (s : State) {n : Nat} (hn : 0 < n) (hC : 0 < s.cfg.chanCount) :
    ∃ bits, s.logicalBits n =
      bits ++ [(s.pixWord (n - 1) (s.cfg.ord (s.cfg.chanCount - 1))).getLsbD 0] := by
  have hplace : (s.cfg.walk n).length - 1 = (n - 1) * s.cfg.chanCount + (s.cfg.chanCount - 1) := by
    obtain ⟨k, rfl⟩ := Nat.exists_eq_succ_of_ne_zero hn.ne'
    rw [walk_length, Nat.succ_mul, Nat.succ_sub_one]
    omega
  have hlast : (s.cfg.walk n).getLast? = some (n - 1, s.cfg.ord (s.cfg.chanCount - 1)) := by
    rw [List.getLast?_eq_getElem?, hplace]
    exact walk_getElem? _ _ _ _ (by omega) (by omega)
  obtain ⟨ps, hps⟩ := List.getLast?_eq_some_iff.mp hlast
  rw [State.logicalBits, hps, List.flatMap_append, List.flatMap_singleton, byteBits_eq_concat,
    channelByte_getLsbD _ (by decide), ← List.append_assoc]
  exact ⟨_, rfl⟩

/-! ### The slot-aligned decoder (rule R160) -/

theorem mapM_eq_some_map {α β : Type} {f : α → Option β} {g : α → β} {xs : List α}
    (h : ∀ x ∈ xs, f x = some (g x)) : xs.mapM f = some (xs.map g) := by
  induction xs with
  | nil => rfl
  | cons x xs ih =>
    rw [List.forall_mem_cons] at h
    simp [List.mapM_cons, h.1, ih h.2]

/-- The run of ones of a pattern tells its logical bit, since the two counts differ (rules R115 and R160). -/
theorem slotValue_patternOf {c : ConfigRegs} {d : Derivation} (h : c.derive = .ok d) (v : Bool) :
    slotValue (c.highBitsOf false) (c.highBitsOf true) (c.patternOf v) = some v := by
  rw [slotValue, leadingOnes_patternOf]
  cases v
  · rw [if_neg fun e => absurd (eq_of_highBitsOf_eq h e) (by decide), if_pos rfl]
  · rw [if_pos rfl]

theorem range_map_getElem_byteBits (b : Byte) :
    (List.range 8).map (fun t => (byteBits b).getD t false) = byteBits b := rfl

section
variable {s : State} {d : Derivation} (h : s.cfg.derive = .ok d) (hs : s.derived = d.regs)
include h hs

theorem decodeChannel_encodeBits {n m : Nat} {p : Nat × BitVec 2} (hm : (s.cfg.walk n)[m]? = some p) :
    decodeChannel s.cfg.patLen s.h0Field s.h1Field (s.encodeBits n) m =
      some (channelByte (s.pixWord p.1 p.2)) := by
  have hslot : ∀ t ∈ List.range 8, slotValue s.h0Field s.h1Field
      (slotAt s.cfg.patLen (s.encodeBits n) (8 * m + t)) =
        some ((byteBits (channelByte (s.pixWord p.1 p.2))).getD t false) := by
    intro t ht
    have ht8 : t < 8 := List.mem_range.mp ht
    have hbit := (logicalBits_getElem? hm ht8).trans (List.getElem?_eq_getElem ht8)
    rw [slotAt_encodeBits hbit, slotBits_eq h hs, List.getD_eq_getElem _ _ ht8,
      show s.h0Field = s.cfg.highBitsOf false from highField_eq h hs false,
      show s.h1Field = s.cfg.highBitsOf true from highField_eq h hs true, slotValue_patternOf h]
  rw [decodeChannel, mapM_eq_some_map hslot, range_map_getElem_byteBits, Option.map_some,
    bitsToNat_byteBits]

/-- The decoder reads the walked words off the frame in their order (rule R160). -/
theorem decodeFrame_frameBytes (n : Nat) :
    s.cfg.decodeFrame s.h0Field s.h1Field n (s.frameBytes n) =
      some ((s.cfg.walk n).map fun p => (p, channelByte (s.pixWord p.1 p.2))) := by
  have hentry : ∀ x ∈ (s.cfg.walk n).zipIdx,
      ((decodeChannel s.cfg.patLen s.h0Field s.h1Field (lineBits (s.frameBytes n)) x.2).map
        fun b => (x.1, b)) = some (x.1, channelByte (s.pixWord x.1.1 x.1.2)) := by
    intro x hx
    rw [lineBits_frameBytes, decodeChannel_encodeBits h hs (List.mem_zipIdx_iff_getElem?.mp hx),
      Option.map_some]
  rw [ConfigRegs.decodeFrame, mapM_eq_some_map hentry]
  conv_rhs => rw [← List.zipIdx_map_fst 0 (s.cfg.walk n), List.map_map]
  rfl

end

/-! ### The pixels a frame walks -/

/-- The channel order of a configured block names every tuple index below C (rule R110, row 4). -/
theorem exists_ord_eq {c : ConfigRegs} (h : c.fieldCheck = none) {ch : BitVec 2} (hch : ch.toNat < c.chanCount) :
    ∃ k, k < c.chanCount ∧ ch = c.ord k := by
  obtain ⟨-, -, -, -, hperm, -⟩ := fieldCheck_none h
  have hmem := (List.isPerm_iff.mp hperm).mem_iff.mpr (List.mem_range.mpr hch)
  simp only [ConfigRegs.order, List.map_map, List.mem_map, List.mem_range, Function.comp_apply] at hmem
  obtain ⟨k, hk, heq⟩ := hmem
  exact ⟨k, hk, BitVec.eq_of_toNat_eq heq.symm⟩

theorem channelByte_toNat {w : Word} (h : channelLegal w = true) : (channelByte w).toNat = w.toNat := by
  obtain ⟨h0, h255⟩ := (channelLegal_iff w).mp h
  rw [BitVec.toInt_eq_toNat_cond] at h0 h255
  simp only [channelByte, BitVec.extractLsb'_toNat, Nat.shiftRight_zero]
  split_ifs at h0 h255 <;> omega

/-- The frame part of what a frame command appends lies behind the leading latch (rule R148). -/
theorem frameOutput_frame_part (s : State) (n : Nat) (pre post : Bool) :
    ((s.out ++ s.frameOutput n pre post).drop (s.out.length + pre.toNat * s.derived.latchBytes.toNat)).take
      (n * s.cfg.chanCount * s.cfg.patLen) = s.frameBytes n := by
  have hpre : (if pre then s.latchFill else []).length = pre.toNat * s.derived.latchBytes.toNat := by
    cases pre <;> simp
  rw [State.frameOutput, ← List.append_assoc, ← List.append_assoc, List.append_assoc _ (s.frameBytes n),
    List.drop_left' (by rw [List.length_append, hpre]), List.take_left' (frameBytes_length s n)]

/-! ### LATCH_BYTES (rules R44 and R170) -/

theorem bitPeriodNs_pos {c : ConfigRegs} (hrate : 0 < c.bitRateHz.toNat) : 0 < c.bitPeriodNs :=
  div_pos (by norm_num [Config.nsPerSecond]) (by exact_mod_cast hrate)

/-- The latch count is the shortest latch in bytes, rounded up (rule R170). -/
theorem latchCount_eq_ceil {c : ConfigRegs} (hrate : 0 < c.bitRateHz.toNat) :
    c.latchCount = ⌈c.latchMinNs / (c.bitPeriodNs * 8)⌉₊ := by
  have hP := bitPeriodNs_pos hrate
  refine eq_of_forall_ge_iff fun n => ?_
  rw [Nat.ceil_le, div_le_iff₀ (by positivity), ← latchMinNs_le_iff hrate,
    show 8 * (n : ℚ) * c.bitPeriodNs = n * (c.bitPeriodNs * 8) by ring]

/-! ### The low run at the end of the line (rule R176) -/

theorem lineBits_zeros (k : Nat) : lineBits (List.replicate k 0#8) = List.replicate (8 * k) false := by
  induction k with
  | zero => rfl
  | succ k ih =>
    rw [List.replicate_succ, lineBits_cons, ih, Nat.mul_succ, Nat.add_comm, List.replicate_add]
    rfl

/-- Bits that end in a run of zeros. -/
theorem trailingZeros_append_zeros (bits : List Bool) (l : Nat) :
    trailingZeros (bits ++ List.replicate l false) = trailingZeros bits + l := by
  rw [trailingZeros, List.reverse_append, List.reverse_replicate, List.takeWhile_append_of_pos (by simp),
    List.length_append, List.length_replicate, Nat.add_comm]
  rfl

theorem trailingZeros_append_ones {h : Nat} (hpos : 0 < h) (bits : List Bool) :
    trailingZeros (bits ++ List.replicate h true) = 0 := by
  obtain ⟨k, rfl⟩ := Nat.exists_eq_succ_of_ne_zero hpos.ne'
  rw [trailingZeros, List.reverse_append, List.reverse_replicate]
  rfl

/-- A slot of the line by the counts of HIGH_BITS (rules R39 and R144). -/
theorem slotBits_eq_fields {s : State} {d : Derivation} (h : s.cfg.derive = .ok d) (hs : s.derived = d.regs)
    (v : Bool) :
    s.slotBits v = List.replicate (s.highField v) true ++ List.replicate (s.lowField v) false := by
  rw [slotBits_eq h hs, ConfigRegs.patternOf, lowBitsOf_eq h, Int.toNat_natCast, highField_eq h hs,
    lowField_eq h hs]

/-- With a trailing latch the line ends in the slot of the last logical bit, lengthened by the latch. -/
theorem lineBits_frameOutput_post {s : State} {d : Derivation} (h : s.cfg.derive = .ok d)
    (hs : s.derived = d.regs) {n : Nat} {bits : List Bool} {last : Bool}
    (hlast : s.logicalBits n = bits ++ [last]) (pre : Bool) (before : List Byte) :
    ∃ bits', lineBits (before ++ s.frameOutput n pre true) =
      bits' ++ List.replicate (s.highField last) true ++
        List.replicate (s.lowField last + 8 * s.derived.latchBytes.toNat) false := by
  rw [frameOutput_post, State.frameOutput, if_neg Bool.false_ne_true, List.append_nil, lineBits_append,
    lineBits_append, lineBits_append, lineBits_frameBytes, encodeBits_eq_slots, hlast, List.flatMap_append,
    List.flatMap_singleton, slotBits_eq_fields h hs, State.latchFill, lineBits_zeros, List.replicate_add]
  exact ⟨_, by simp only [← List.append_assoc]; rfl⟩

/-! ### A rate too coarse for the T0H window (rule R117) -/

/-- The failed bound checks of the 0 code fail the derivation, whatever it then reports (rule R112). -/
theorem exists_derive_error {c : ConfigRegs} (h : c.boundCheck false ≠ none) :
    ∃ f, c.derive = .error f := by
  cases hd : c.derive with
  | error f => exact ⟨f, rfl⟩
  | ok d => exact absurd (boundCheck_of_derive hd false) h

theorem boundCheck_of_derive_error {c : ConfigRegs} {f : CfgFailure} (hfield : c.fieldCheck = none)
    (h : c.boundCheck false ≠ none) (hd : c.derive = .error f) : c.boundCheck false = some f := by
  obtain ⟨f', hf⟩ := Option.ne_none_iff_exists'.mp h
  have hd' : c.derive = .error f' := by simp [ConfigRegs.derive, hfield, hf]
  cases hd.symm.trans hd'
  exact hf

theorem boundCheck_high_below {c : ConfigRegs} {v : Bool}
    (h : 1000000000 * c.highBitsOf v < c.highMin v * c.bitRateHz.toNat) :
    ∃ f, c.boundCheck v = some f ∧ f.error = .bound v .high .belowMin := by
  have hlt : (Config.nsPerSecond : Int) * (c.highBitsOf v : Int) <
      ((c.highMin v * c.bitRateHz.toNat : Nat) : Int) := by exact_mod_cast h
  exact ⟨_, if_pos hlt, rfl⟩

theorem boundCheck_high_above {c : ConfigRegs} {v : Bool}
    (hmin : c.highMin v * c.bitRateHz.toNat ≤ 1000000000 * c.highBitsOf v)
    (h : c.highMax v * c.bitRateHz.toNat < 1000000000 * c.highBitsOf v) :
    ∃ f, c.boundCheck v = some f ∧ f.error = .bound v .high .aboveMax := by
  have hge : ¬ (Config.nsPerSecond : Int) * (c.highBitsOf v : Int) <
      ((c.highMin v * c.bitRateHz.toNat : Nat) : Int) := not_lt.mpr (by exact_mod_cast hmin)
  have hgt : ((c.highMax v * c.bitRateHz.toNat : Nat) : Int) <
      (Config.nsPerSecond : Int) * (c.highBitsOf v : Int) := by exact_mod_cast h
  exact ⟨_, (if_neg hge).trans (if_pos hgt), rfl⟩

section
variable {c : ConfigRegs} (hcoarse : c.highMax false * c.bitRateHz.toNat < 1000000000)
include hcoarse

/-- A typical high time within the maximum is less than a period, so it rounds to 0 or 1. -/
theorem highBitsOf_le_one (htyp : c.highTyp false ≤ c.highMax false) : c.highBitsOf false ≤ 1 := by
  have hprod := Nat.mul_le_mul_right c.bitRateHz.toNat htyp
  refine Nat.le_of_lt_succ (Nat.div_lt_of_lt_mul ?_)
  simp only [Config.nsPerSecond, Nat.mul_assoc]
  omega

/-- With a minimum above 0 a run of no bit is too short and a run of one bit too long. -/
theorem boundCheck_false_ne_none (hrate : 0 < c.bitRateHz.toNat) (htyp : c.highTyp false ≤ c.highMax false)
    (hmin : 0 < c.highMin false) : c.boundCheck false ≠ none := by
  intro hnone
  obtain ⟨hlow, hhigh, -, -⟩ := boundCheck_none_iff.mp hnone
  have hprod : 0 < c.highMin false * c.bitRateHz.toNat := Nat.mul_pos hmin hrate
  have hone := highBitsOf_le_one hcoarse htyp
  omega

end

/-! ### The configuration bits no check reads (rules R32 and R100) -/

/-- A narrower field within equal fields is equal. -/
theorem extractLsb'_congr {x y : Word} {start len : Nat}
    (h : x.extractLsb' start len = y.extractLsb' start len) {offset width : Nat} (hle : offset + width ≤ len) :
    x.extractLsb' (start + offset) width = y.extractLsb' (start + offset) width := by
  refine BitVec.eq_of_getLsbD_eq fun i hi => ?_
  have hbit := congrArg (fun z => z.getLsbD (offset + i)) h
  simp only [BitVec.getLsbD_extractLsb', decide_eq_true (show offset + i < len by omega), Bool.true_and] at hbit
  simp only [BitVec.getLsbD_extractLsb', hi, Nat.add_assoc, hbit]

/-- CHAN_CFG is read through its count and, where that is legal, through its order only (rule R110). -/
theorem derive_setChanCfg {c : ConfigRegs} {x : Word}
    (hcount : ({ c with chanCfg := x } : ConfigRegs).chanCount = c.chanCount)
    (horder : c.chanCount = 3 ∨ c.chanCount = 4 → ({ c with chanCfg := x } : ConfigRegs).order = c.order) :
    ({ c with chanCfg := x } : ConfigRegs).derive = c.derive := by
  have hfield : ({ c with chanCfg := x } : ConfigRegs).fieldCheck = c.fieldCheck := by
    by_cases h : c.chanCount = 3 ∨ c.chanCount = 4
    · simp only [ConfigRegs.fieldCheck, hcount, horder h]
      rfl
    · simp only [ConfigRegs.fieldCheck, hcount, h, not_false_eq_true, if_true]
      rfl
  unfold ConfigRegs.derive
  rw [hfield]
  rfl

/-- COUNT and the order positions below it fix the order: three positions, or a fourth one (rule R32). -/
theorem order_setChanCfg {c : ConfigRegs} {x : Word}
    (hcount : x.extractLsb' 0 4 = c.chanCfg.extractLsb' 0 4)
    (hords : x.extractLsb' 8 6 = c.chanCfg.extractLsb' 8 6)
    (hord3 : c.chanCfg.extractLsb' 0 4 = 0x4#4 → x.extractLsb' 14 2 = c.chanCfg.extractLsb' 14 2)
    (h : c.chanCount = 3 ∨ c.chanCount = 4) :
    ({ c with chanCfg := x } : ConfigRegs).order = c.order := by
  have hC : ({ c with chanCfg := x } : ConfigRegs).chanCount = c.chanCount := congrArg BitVec.toNat hcount
  rw [ConfigRegs.order, ConfigRegs.order, hC]
  refine List.map_congr_left fun k hk => ?_
  have hk' := List.mem_range.mp hk
  by_cases hk3 : k < 3
  · exact extractLsb'_congr hords (by omega)
  · obtain rfl : k = 3 := by omega
    exact hord3 (BitVec.eq_of_toNat_eq (show c.chanCount = 4 by omega))

/-! ### Which error is reported (rule R210) -/

theorem any_fails_of_derive_error {c : ConfigRegs} {f : CfgFailure} (h : c.derive = .error f) :
    (checkTable c).any (fun r => r.fails) = true := by
  obtain ⟨row, hrow, -⟩ := checkTable_of_error h
  rw [← List.isSome_find?, hrow]
  rfl

theorem any_fails_of_derive_ok {c : ConfigRegs} {d : Derivation} (h : c.derive = .ok d) :
    (checkTable c).any (fun r => r.fails) = false := by
  rw [← List.isSome_find?, checkTable_of_ok h]
  rfl

/-- The walk has a first illegal word exactly where not every word of it is legal. -/
theorem isSome_firstIllegal (s : State) (n : Nat) :
    (s.firstIllegal n).isSome = !(s.cfg.walk n).all fun p => channelLegal (s.pixWord p.1 p.2) := by
  rw [State.firstIllegal, List.isSome_find?, List.not_all_eq_any_not]

/-! ### The obligations -/

/-- Settles O34: a legal frame succeeds, the decoder reads the walked words off its slots, and the walk meets every
word with c < C, whose low byte is its value. -/
theorem frameRoundTrip : Obligations.FrameRoundTrip := by
  intro s n pre post hinv hc hn hlegal
  obtain ⟨d, hd, hs⟩ := hinv.configured_derived hc
  obtain ⟨hfield, -⟩ := derive_ok hd
  have hf : s.firstIllegal n = none :=
    firstIllegal_eq_none fun i k hi hk => hlegal i _ hi (ord_lt_chanCount hinv hc hk)
  refine ⟨_, _, exec_encodeFrame_ok hc hn hf pre post, rfl,
    (congrArg _ (frameOutput_frame_part s n pre post)).trans (decodeFrame_frameBytes hd hs n),
    fun i ch hi hch => ?_⟩
  exact ⟨_, List.lookup_graph _ (mem_walk.mpr ⟨hi, exists_ord_eq hfield hch⟩),
    channelByte_toNat (hlegal i ch hi hch)⟩

/-- Settles O25: each field of the written registers, read through the lemmas on a derivation's registers. -/
theorem derivedRegisterFields : Obligations.DerivedRegisterFields := by
  intro s d hc hd
  have hlow := lowBitsOf_eq hd
  have hbits := @patternReg_getLsbD _ _ hd
  have habove := @patternReg_getLsbD_of_le _ _ hd
  have hhighField := highField_eq (s := s.installConfiguration d) hd rfl
  have hlowField := lowField_eq (s := s.installConfiguration d) hd rfl
  have hlatch := installConfiguration_latchBytes hd
  obtain ⟨hfield, -, -, -, rfl⟩ := derive_ok hd
  refine ⟨_, exec_configure_ok hc hd, hhighField false, hhighField true,
    (congrArg Nat.cast (hlowField false)).trans (hlow false).symm,
    (congrArg Nat.cast (hlowField true)).trans (hlow true).symm,
    fun k hk => ⟨hbits false hk, hbits true hk⟩, fun k hk => ⟨habove false hk, habove true hk⟩, ?_⟩
  rw [hlatch, latchCount_eq_ceil (bitRate_pos hfield), ConfigRegs.latchMinNs, mul_div_assoc]

/-- Settles O36: the line ends in the ones and zeros of the last slot and the zeros of the latch; the ones, where
there are any, end the low run. -/
theorem latchLowRunAfterFrame : Obligations.LatchLowRunAfterFrame := by
  intro s t n pre hinv hn h hok last
  obtain ⟨hc, -, -, rfl⟩ := exec_encodeFrame_ok_inv h hok
  obtain ⟨d, hd, hs⟩ := hinv.configured_derived hc
  obtain ⟨hfield, -⟩ := derive_ok hd
  obtain ⟨-, -, -, hcount, -⟩ := fieldCheck_none hfield
  obtain ⟨bits, hlast⟩ := logicalBits_eq_concat s hn (by omega)
  obtain ⟨bits, hbits⟩ := lineBits_frameOutput_post hd hs hlast pre s.out
  change s.lowField last + _ ≤ _ ∧ (0 < s.highField last → _ = s.lowField last + _)
  rw [State.finish_out, hbits, trailingZeros_append_zeros]
  refine ⟨Nat.le_add_left _ _, fun hpos => ?_⟩
  rw [trailingZeros_append_ones hpos, Nat.zero_add]

/-- Settles O37: the size law of the frame output, at 8 · P a byte. -/
theorem emittedTimeIsFramePlusLatches : Obligations.EmittedTimeIsFramePlusLatches := by
  intro s t n pre post h hok
  obtain ⟨-, -, -, rfl⟩ := exec_encodeFrame_ok_inv h hok
  refine ⟨_, rfl, ?_⟩
  rw [ConfigRegs.bytesNs, frameOutput_length, ConfigRegs.frameNs, State.latchNs]
  push_cast
  ring

/-- Settles O23: the rate in the model's terms, then the high bound check at a count of 0 and of 1. -/
theorem tooCoarseRateFails : Obligations.TooCoarseRateFails := by
  intro c hrate htyp hperiod
  have hr : 0 < c.bitRateHz.toNat := Nat.pos_of_ne_zero (by simpa [← BitVec.toNat_inj] using hrate)
  have hcoarse : c.highMax false * c.bitRateHz.toNat < 1000000000 := by
    have h := mt (bits_le_time_iff hr (c.highMax false) 1).mpr (by simpa [ConfigRegs.highMax] using hperiod)
    omega
  have hone := highBitsOf_le_one hcoarse htyp
  refine ⟨by omega, fun hmin => ?_, fun hmin hzero => ⟨fun f hf => ?_, ?_⟩⟩
  · have hbound := boundCheck_false_ne_none hcoarse hr htyp hmin
    obtain ⟨f, hf⟩ := exists_derive_error hbound
    refine ⟨f, hf, fun hfield hzero => ?_, fun hfield hbit hwindow => ?_⟩
    · obtain ⟨f', hf', he⟩ := boundCheck_high_below (c := c) (v := false)
        (by rw [hzero]; exact Nat.mul_pos hmin hr)
      cases (boundCheck_of_derive_error hfield hbound hf).symm.trans hf'
      rw [he]
      rfl
    · have hle : c.highMin false * c.bitRateHz.toNat ≤ c.highMax false * c.bitRateHz.toNat :=
        Nat.mul_le_mul_right _ hwindow
      obtain ⟨f', hf', he⟩ := boundCheck_high_above (c := c) (v := false) (by omega) (by omega)
      cases (boundCheck_of_derive_error hfield hbound hf).symm.trans hf'
      rw [he]
      rfl
  · have hmin' : c.highMin false = 0 := congrArg BitVec.toNat hmin
    have hne := boundCheck_error_ne_high hzero hmin' hf
    rcases boundCheck_some_cases hf with ⟨he, -⟩ | ⟨he, -⟩ | ⟨side, he⟩
    · exact absurd he (hne _)
    · exact absurd he (hne _)
    · rw [he]
      cases side <;> decide
  · rw [ConfigRegs.patternOf, hzero, ConfigRegs.lowBitsOf, hzero]
    rfl

/-- Settles O24: CHAN_CFG is read through COUNT and the order positions below it, and TLD_TYP not at all. -/
theorem deriveIgnoresUnusedBits : Obligations.DeriveIgnoresUnusedBits := by
  intro c x hcount hords hord3
  refine ⟨derive_setChanCfg (congrArg BitVec.toNat hcount) (order_setChanCfg hcount hords hord3),
    derive_setTldTyp c, fun h => order_setChanCfg hcount hords hord3 ?_⟩
  rw [hcount] at h
  exact h.imp (congrArg BitVec.toNat) (congrArg BitVec.toNat)

/-- Settles O40: the answers of each command in the order of its checks. -/
theorem errorPriority : Obligations.ErrorPriority := by
  refine ⟨fun s w hp hd => ?_, fun s => ?_, fun s n pre post => ?_, fun s => ?_⟩
  · cases hw : decode w with
    | ok i => exact absurd hw (hd i)
    | error e =>
      obtain ⟨op⟩ := e
      exact ⟨_, encoderTurn_of_illegal hp hw, rfl⟩
  · rcases execConfigure_cases s with ⟨hc, h⟩ | ⟨f, hc, hd, h⟩ | ⟨d, hc, hd, h⟩
    · exact ⟨_, h, by rw [hc]; rfl⟩
    · exact ⟨_, h, by rw [hc, any_fails_of_derive_error hd]; rfl⟩
    · exact ⟨_, h, by rw [hc, any_fails_of_derive_ok hd]; rfl⟩
  · have hall := isSome_firstIllegal s n
    rcases execEncodeFrame_cases n pre post s with
      ⟨hc, h⟩ | ⟨hc, hn, h⟩ | ⟨p, hc, hn, hf, h⟩ | ⟨hc, hn, hf, h⟩
    · exact ⟨_, h, by rw [if_pos hc]; rfl⟩
    · exact ⟨_, h, by rw [if_neg (by simp [hc]), if_pos hn]; rfl⟩
    · rw [hf, Option.isSome_some, Bool.true_eq, Bool.not_eq_true'] at hall
      exact ⟨_, h, by rw [if_neg (by simp [hc]), if_neg hn.not_gt, if_pos hall]; rfl⟩
    · rw [hf, Option.isSome_none, Bool.false_eq, Bool.not_eq_false'] at hall
      exact ⟨_, h, by rw [if_neg (by simp [hc]), if_neg hn.not_gt, if_neg (by simp [hall])]; rfl⟩
  · rcases execGenerateLatch_cases s with ⟨hc, h⟩ | ⟨hc, h⟩
    · exact ⟨_, h, by rw [hc]; rfl⟩
    · exact ⟨_, h, by rw [hc]; rfl⟩

end Sys2Proof.Machine
end


section
/-! PROOFS. The family other, the command word, the turns and the invariant: the round trip of a command word
(rules R81 to R83), which turn a step takes (rules R43, R70 and R200), what keeps the invariant, and the two
resets of hardware (rules R49 and R230). The obligations stand last. -/

namespace Sys2Proof.Machine

/-! ### The round trip of a command word (rules R81 to R83) -/

theorem decode_encode_encodeFrame {n : Nat} (hn : n ≤ 65535) (pre post : Bool) :
    decode (encode (.encodeFrame n pre post)) = .ok (.encodeFrame n pre post) := by
  have hw := encodeFrame_toNat n pre post
  have hpre := pre.toNat_le
  have hpost := post.toNat_le
  have hn' : nField (encode (.encodeFrame n pre post)) = n := by
    rw [nField_eq, hw]
    omega
  have hpre' : preField (encode (.encodeFrame n pre post)) = pre := by
    rw [preField_eq, hw]
    cases pre <;> simp <;> omega
  have hpost' : postField (encode (.encodeFrame n pre post)) = post := by
    rw [postField_eq, hw]
    cases post <;> simp <;> omega
  rw [decode_of_encodeFrame_selected ((encodeFrame_selected_iff _).mpr (by omega)), hn', hpre', hpost']

theorem toNat_decide_bit (x : Nat) : (decide (x % 2 = 1)).toNat = x % 2 := by
  rcases Nat.mod_two_eq_zero_or_one x with h | h <;> rw [h] <;> rfl

theorem encode_of_selected {w : Word} (h : w &&& encodeFrameMask = 0x00000002#32) :
    encode (.encodeFrame (nField w) (preField w) (postField w)) = w := by
  have hw := w.isLt
  obtain ⟨hop, hzero⟩ := (encodeFrame_selected_iff w).mp h
  apply BitVec.eq_of_toNat_eq
  rw [encodeFrame_toNat, nField_eq, preField_eq, postField_eq, toNat_decide_bit, toNat_decide_bit]
  omega

theorem nField_le (w : Word) : nField w ≤ 65535 := by
  have hw := w.isLt
  rw [nField_eq]
  omega

/-! ### The step -/

theorem nextTurn_of_empty {s : State} {w : Word} (ht : s.turns = []) (hp : s.pending = some w) :
    s.nextTurn = .encoder := by
  simp [State.nextTurn, ht, busy_of_pending hp]

theorem nextTurn_of_cons {s : State} {turn : Turn} {ts : List Turn} (ht : s.turns = turn :: ts) :
    s.nextTurn = turn := by
  simp [State.nextTurn, ht]

theorem step_of_encoder {s : State} (hn : s.nextTurn = .encoder) : step s = s.popTurn.encoderTurn := by
  rw [step, hn]
  rfl

theorem encoderTurn_of_idle {s : State} (hp : s.pending = none) : s.encoderTurn = .next s := by
  simp [State.encoderTurn, hp]

theorem step_of_idle_empty {s : State} (hp : s.pending = none) (ht : s.turns = []) :
    step s = .next s.popTurn.hostTurn := by
  have hn : s.nextTurn = .host := by simp [State.nextTurn, ht, State.busy, hp]
  rw [step, hn]
  rfl

/-! ### What keeps the invariant -/

/-- The invariant reads eight fields only. -/
theorem State.Inv.congr {s t : State} (h : s.Inv) (hconf : t.configured = s.configured)
    (hder : t.derived = s.derived) (hcfg : t.cfg = s.cfg) (hcode : t.cfgErrCode = s.cfgErrCode)
    (hdelta : t.cfgErrDelta = s.cfgErrDelta) (hnpix : t.npixMax = s.npixMax)
    (hval : t.valErrPixel = s.valErrPixel) (hpix : t.pix = s.pix) : t.Inv where
  unconfigured_derived := by rw [hconf, hder]; exact h.unconfigured_derived
  configured_derived := by rw [hconf, hder, hcfg]; exact h.configured_derived
  configured_no_failure := by rw [hconf, hcode]; exact h.configured_no_failure
  no_failure_no_delta := by rw [hcode, hdelta]; exact h.no_failure_no_delta
  npixMax_pos := by rw [hnpix]; exact h.npixMax_pos
  valErrPixel_lt := by rw [hnpix, hval]; exact h.valErrPixel_lt
  pix_wf := by rw [hpix]; exact h.pix_wf
  pix_range := by rw [hpix, hnpix]; exact h.pix_range

section
variable {s : State} (h : s.Inv)
include h

theorem State.Inv.setHost (a : HostAgent) : ({ s with host := a } : State).Inv :=
  h.congr rfl rfl rfl rfl rfl rfl rfl rfl

theorem State.Inv.popTurn : s.popTurn.Inv := h.congr rfl rfl rfl rfl rfl rfl rfl rfl

/-- The completion of a command writes no field the invariant reads. -/
theorem State.Inv.finish (code : ResultCode) (op : BitVec 4) (bytes : List Byte) :
    (s.finish code op bytes).Inv := h.congr rfl rfl rfl rfl rfl rfl rfl rfl

theorem State.Inv.setCfg (hc : s.configured = false) (cfg : ConfigRegs) : ({ s with cfg := cfg } : State).Inv :=
  { h with configured_derived := fun hc' => absurd (hc.symm.trans hc') Bool.false_ne_true }

theorem State.Inv.storePix {i : Nat} (hi : i < s.npixMax.toNat) (c : BitVec 2) (w : Word) :
    (s.storePix i c w).Inv :=
  { h with
    pix_wf := Memory.writeWord_wf h.pix_wf _ _
    pix_range := fun cell hcell => by
      rcases Memory.mem_writeWord hcell with ⟨hge, hlt⟩ | hmem
      · have hc := c.isLt
        simp only [pixAddr] at hge hlt
        exact ⟨by omega, by rw [State.storePix_npixMax]; omega⟩
      · exact h.pix_range cell hmem }

theorem State.Inv.memWrite (addr : BusAddr) (w : Word) : (s.memWrite addr w).Inv := by
  rcases memWrite_cases s addr w with
    ⟨-, e⟩ | ⟨-, -, e⟩ | ⟨-, -, -, e⟩ | ⟨-, hc, r, -, e⟩ | ⟨-, i, c, hi, -, e⟩ | ⟨-, e⟩ <;> rw [e]
  · exact h.congr rfl rfl rfl rfl rfl rfl rfl rfl
  · exact h.congr rfl rfl rfl rfl rfl rfl rfl rfl
  · exact h.congr rfl rfl rfl rfl rfl rfl rfl rfl
  · exact h.setCfg hc _
  · exact h.storePix hi c w
  · exact h

theorem State.Inv.hostTurn : s.hostTurn.Inv := by
  rcases hostTurn_cases s with ⟨a, e⟩ | ⟨addr, w, a, -, e⟩ <;> rw [e]
  · exact h.setHost a
  · exact (h.memWrite addr w).setHost a

/-- Writing the error details keeps the invariant where they agree with CONFIGURED and with each other. -/
theorem State.Inv.setCfgErr {e : Option CfgError} {delta : Word} (hconf : s.configured = true → e = none)
    (hdelta : e = none → delta = 0#32) : (s.setCfgErr e delta).Inv :=
  { h with
    configured_no_failure := hconf
    no_failure_no_delta := hdelta }

theorem State.Inv.setValErr {pixel : BitVec 16} (hpixel : pixel.toNat < s.npixMax.toNat) (ch : BitVec 2) :
    (s.setValErr pixel ch).Inv :=
  { h with valErrPixel_lt := hpixel }

theorem State.Inv.clearSticky : s.clearSticky.Inv := h.congr rfl rfl rfl rfl rfl rfl rfl rfl

theorem State.Inv.resetRegisters : s.resetRegisters.Inv :=
  { h with
    unconfigured_derived := fun _ => rfl
    configured_derived := nofun
    configured_no_failure := nofun
    no_failure_no_delta := fun _ => rfl
    valErrPixel_lt := h.npixMax_pos }

theorem State.Inv.hardwareReset : s.hardwareReset.Inv :=
  { h.resetRegisters with
    pix_wf := List.Pairwise.nil
    pix_range := nofun }

theorem State.Inv.raiseConfigurationError (hc : s.configured = false) (f : CfgFailure) :
    (s.raiseConfigurationError f).Inv := by
  have herr := h.setCfgErr (e := some f.error) (delta := f.delta)
    (fun hc' => absurd (hc.symm.trans hc') Bool.false_ne_true) nofun
  exact State.Inv.finish (s := (s.setCfgErr (some f.error) f.delta).setDerived .reset)
    { herr with
      unconfigured_derived := fun _ => rfl
      configured_derived := fun hc' => absurd (hc.symm.trans hc') Bool.false_ne_true } _ _ _

theorem State.Inv.installConfiguration {d : Derivation} (hd : s.cfg.derive = .ok d) :
    (s.installConfiguration d).Inv :=
  State.Inv.finish (s := ((s.setDerived d.regs).setCfgErr none 0#32).setConfigured)
    { h with
      unconfigured_derived := nofun
      configured_derived := fun _ => ⟨d, hd, rfl⟩
      configured_no_failure := fun _ => rfl
      no_failure_no_delta := fun _ => rfl } _ _ _

/-- The pixel a ValueError reports is one of the frame, so one of the memory (rules R146 and R207). -/
theorem State.Inv.raiseValueError {n : Nat} {p : Nat × BitVec 2} (hn : n ≤ s.npixMax.toNat)
    (hf : s.firstIllegal n = some p) : (s.raiseValueError p.1 p.2).Inv := by
  obtain ⟨hi, -⟩ := mem_walk.mp (List.mem_of_find?_eq_some hf)
  have hpixel : (BitVec.ofNat 16 p.1).toNat < s.npixMax.toNat := by
    rw [BitVec.toNat_ofNat]
    exact (Nat.mod_le _ _).trans_lt (hi.trans_le hn)
  exact (h.setValErr hpixel p.2).finish _ _ _

theorem State.Inv.exec {i : Instr} {t : State} (ht : exec i s = .next t) : t.Inv := by
  cases i with
  | nop => cases ht; exact h.finish _ _ _
  | configure =>
    rcases execConfigure_cases s with ⟨-, e⟩ | ⟨f, hc, -, e⟩ | ⟨d, -, hd, e⟩ <;> cases ht.symm.trans e
    · exact h.finish _ _ _
    · exact h.raiseConfigurationError hc f
    · exact h.installConfiguration hd
  | encodeFrame n pre post =>
    rcases execEncodeFrame_cases n pre post s with ⟨-, e⟩ | ⟨-, -, e⟩ | ⟨p, -, hn, hf, e⟩ | ⟨-, -, -, e⟩ <;>
      cases ht.symm.trans e
    · exact h.finish _ _ _
    · exact h.finish _ _ _
    · exact h.raiseValueError hn hf
    · exact h.finish _ _ _
  | generateLatch =>
    rcases execGenerateLatch_cases s with ⟨-, e⟩ | ⟨-, e⟩ <;> cases ht.symm.trans e
    · exact h.finish _ _ _
    · exact h.finish _ _ _
  | clearError =>
    cases ht
    have herr := h.clearSticky.setCfgErr (e := none) (fun _ => rfl) (fun _ => rfl)
    exact (herr.setValErr (pixel := 0#16) h.npixMax_pos 0#2).finish _ _ _
  | softReset => cases ht; exact h.resetRegisters.finish _ _ _

theorem State.Inv.encoderTurn {t : State} (ht : s.encoderTurn = .next t) : t.Inv := by
  rcases encoderTurn_cases s with ⟨-, e⟩ | ⟨w, i, -, -, e⟩ | ⟨w, op, -, -, e⟩ <;> rw [ht] at e
  · cases e; exact h
  · exact h.exec e.symm
  · cases e; exact h.finish _ _ _

end

/-! ### Reset (rules R49 and R230) -/

/-- The open parameter lies in 1 to 65535 (rule R7). -/
theorem npixMax_toNat : Config.npixMax.toNat = Config.npixMaxPred.val + 1 := by
  have hlt := Config.npixMaxPred.isLt
  rw [Config.npixMax, BitVec.toNat_ofNat]
  omega

theorem reset_inv : State.reset.Inv where
  unconfigured_derived := fun _ => rfl
  configured_derived := nofun
  configured_no_failure := nofun
  no_failure_no_delta := fun _ => rfl
  npixMax_pos := by rw [State.reset, npixMax_toNat]; omega
  valErrPixel_lt := by rw [State.reset, npixMax_toNat]; exact Nat.succ_pos _
  pix_wf := List.Pairwise.nil
  pix_range := nofun

/-- After hardware reset every register but NPIX_MAX reads 0 (rules R50 and R230). -/
theorem readReg_hardwareReset (s : State) {r : Reg} (hr : r ≠ .npixMax) :
    s.hardwareReset.readReg r = 0#32 := by
  cases r with
  | npixMax => exact absurd rfl hr
  | config r => exact ConfigRegs.reset_get r
  | status => exact statusWord_eq_zero rfl rfl rfl rfl
  | result => exact (by decide : 0#20 ++ (0#4 ++ ResultCode.ok.code) = 0#32)
  | _ => rfl

/-- The state after hardware reset differs from a state just reset in the draw of pixel memory only, which no
register shows. -/
theorem readReg_reset (r : Reg) : State.reset.readReg r = State.reset.hardwareReset.readReg r := by
  cases r <;> rfl

/-! ### The obligations -/

/-- Settles O4: the five fixed words are decoded by evaluation, ENCODE_FRAME's through its fields. -/
theorem decodeOfEncode : Obligations.DecodeOfEncode := by
  intro i hi
  cases i with
  | encodeFrame n pre post => exact decode_encode_encodeFrame (of_decide_eq_true hi) pre post
  | _ => rfl

/-- Settles O5: the row a word selects fixes it, for ENCODE_FRAME together with the operands. -/
theorem encodeOfDecode : Obligations.EncodeOfDecode := by
  intro w i h
  have hsel := selectedBy_of_decode h
  cases i with
  | encodeFrame n pre post =>
    obtain ⟨rfl, rfl, rfl⟩ := decode_encodeFrame_operands h
    exact ⟨decide_eq_true (nField_le w), encode_of_selected hsel⟩
  | _ => exact ⟨rfl, (eq_of_and_fullMask hsel).symm⟩

/-- Settles O6: the Encoder's turn on the popped state, where the same word is pending. -/
theorem stepRunsDecodedCommand : Obligations.StepRunsDecodedCommand :=
  ⟨fun _ _ _ hn hp hd => (step_of_encoder hn).trans (encoderTurn_of_decode hp hd),
    fun _ _ _ hn hp hd => (step_of_encoder hn).trans (encoderTurn_of_illegal hp hd),
    fun _ _ ht hp => nextTurn_of_empty ht hp, fun _ _ ht => nextTurn_of_cons ht⟩

/-- Settles O7: the turn is taken off the input; an Encoder turn with nothing pending is idle. -/
theorem eachTurnMovesItsAgent : Obligations.EachTurnMovesItsAgent := fun s ts =>
  ⟨rfl, rfl, rfl, fun hp => encoderTurn_of_idle (s := { s with turns := ts }) hp,
    fun hp => step_of_idle_empty (s := { s with turns := [] }) hp rfl⟩

/-- Settles O8: each of the three turns answers a next state, and the Encoder's ends the pending word. -/
theorem machineNeverStops : Obligations.MachineNeverStops := by
  refine ⟨fun s => ?_, fun s w hp => ?_⟩
  · rcases step_cases s with ⟨-, h⟩ | ⟨-, h⟩ | ⟨-, h⟩
    · exact ⟨_, h⟩
    · obtain ⟨t, -, ht, -⟩ := encoderTurn_answers s.popTurn
      exact ⟨t, h.trans ht⟩
    · exact ⟨_, h⟩
  · obtain ⟨t, h, hpend, hop⟩ := encoderTurn_completes hp
    exact ⟨t, h, hpend, by simp [State.busy, hpend], hop⟩

/-- Settles O9, turn by turn. -/
theorem stepKeepsInvariant : Obligations.StepKeepsInvariant := by
  intro s t h ht
  rcases step_next_cases ht with ⟨-, rfl⟩ | ⟨-, ht⟩ | ⟨-, rfl⟩
  · exact h.popTurn.hostTurn
  · exact h.popTurn.encoderTurn ht
  · exact h.popTurn.hardwareReset

/-- Settles O10: nothing is configured or listed, and the parameter is legal. -/
theorem resetMeetsInvariant : Obligations.ResetMeetsInvariant := ⟨reset_inv, List.Pairwise.nil⟩

/-- Settles O11: the registers of a hardware reset, the parameter's range, and an unconfigured idle block, which
stores a configuration write. -/
theorem resetState : Obligations.ResetState := by
  have hlt := Config.npixMaxPred.isLt
  refine ⟨fun r hr => (readReg_reset r).trans (readReg_hardwareReset _ hr), ?_, rfl, rfl, fun _ => rfl, rfl,
    fun r addr w ha => ?_⟩
  · rw [State.readReg, npixMaxWord_toNat, State.reset, npixMax_toNat]
    omega
  · rw [memWrite_config_unconfigured rfl rfl ha]
    exact readReg_setCfg_same _ r w

/-- Settles O12: the reset registers field by field; the memory lists nothing, so each byte is the new draw's. -/
theorem hardwareResetFromAnyState : Obligations.HardwareResetFromAnyState := fun _ _ =>
  ⟨_, rfl, fun _ hr => readReg_hardwareReset _ hr, rfl, rfl, rfl, fun _ => rfl, rfl, rfl, rfl⟩

end Sys2Proof.Machine
end


section
/-! PROOFS. The family other, the commands' columns, the bus port and the Host: what a command leaves (rule
R48), the words of STATUS and RESULT (rules R22 and R23), pixel words on the bus port (rules R41, R63 and R69),
the Host's statements and assembly errors (rules R89 and R252), and a pending command against the Host (rules
R65 and R73). The obligations stand last. -/

namespace Sys2Proof.Machine

/-! ### What a command leaves (rule R48) -/

/-- A byte of pixel memory depends on the listed bytes and the draw only. -/
theorem pixByte_congr {s t : State} (hpix : t.pix = s.pix) (hdraw : t.pixDraw = s.pixDraw) (a : Nat) :
    t.pixByte a = s.pixByte a := by
  rw [State.pixByte, State.pixByte, hpix, hdraw]

/-- The columns of rule R48 that `exec_answers` does not speak of: which commands write the configuration, the
derived registers, the error details and the sticky flags. -/
structure KeepsColumns (i : Instr) (s t : State) : Prop where
  cfg : i ≠ .softReset → t.cfg = s.cfg
  configuration : i ≠ .softReset → i ≠ .configure → t.configured = s.configured ∧ t.derived = s.derived
  cfgErr : i ≠ .softReset → i ≠ .configure → i ≠ .clearError →
    t.cfgErrCode = s.cfgErrCode ∧ t.cfgErrDelta = s.cfgErrDelta
  valErr : i ≠ .softReset → i ≠ .clearError → (∀ n pre post, i ≠ .encodeFrame n pre post) →
    t.valErrPixel = s.valErrPixel ∧ t.valErrChannel = s.valErrChannel
  sticky : i ≠ .softReset → i ≠ .clearError →
    t.lockViolation = s.lockViolation ∧ t.busyViolation = s.busyViolation

theorem finish_keepsColumns (i : Instr) (s : State) (code : ResultCode) (op : BitVec 4) (bytes : List Byte) :
    KeepsColumns i s (s.finish code op bytes) :=
  ⟨fun _ => rfl, fun _ _ => ⟨rfl, rfl⟩, fun _ _ _ => ⟨rfl, rfl⟩, fun _ _ _ => ⟨rfl, rfl⟩,
    fun _ _ => ⟨rfl, rfl⟩⟩

/-- CONFIGURE writes the derived registers, CONFIGURED and the CFG_ERR registers, whatever its outcome. -/
theorem configure_keepsColumns {s t : State} (hcfg : t.cfg = s.cfg)
    (hval : t.valErrPixel = s.valErrPixel ∧ t.valErrChannel = s.valErrChannel)
    (hsticky : t.lockViolation = s.lockViolation ∧ t.busyViolation = s.busyViolation) :
    KeepsColumns .configure s t :=
  ⟨fun _ => hcfg, fun _ h => absurd rfl h, fun _ h => absurd rfl h, fun _ _ _ => hval, fun _ _ => hsticky⟩

theorem exec_keepsColumns {i : Instr} {s t : State} (ht : exec i s = .next t) : KeepsColumns i s t := by
  cases i with
  | nop => cases ht; exact finish_keepsColumns _ s _ _ _
  | configure =>
    rcases execConfigure_cases s with ⟨-, e⟩ | ⟨f, -, -, e⟩ | ⟨d, -, -, e⟩ <;> cases ht.symm.trans e
    · exact finish_keepsColumns _ s _ _ _
    · exact configure_keepsColumns rfl ⟨rfl, rfl⟩ ⟨rfl, rfl⟩
    · exact configure_keepsColumns rfl ⟨rfl, rfl⟩ ⟨rfl, rfl⟩
  | encodeFrame n pre post =>
    rcases execEncodeFrame_cases n pre post s with ⟨-, e⟩ | ⟨-, -, e⟩ | ⟨p, -, -, -, e⟩ | ⟨-, -, -, e⟩ <;>
      cases ht.symm.trans e
    · exact finish_keepsColumns _ s _ _ _
    · exact finish_keepsColumns _ s _ _ _
    · exact ⟨fun _ => rfl, fun _ _ => ⟨rfl, rfl⟩, fun _ _ _ => ⟨rfl, rfl⟩,
        fun _ _ h => absurd rfl (h n pre post), fun _ _ => ⟨rfl, rfl⟩⟩
    · exact finish_keepsColumns _ s _ _ _
  | generateLatch =>
    rcases execGenerateLatch_cases s with ⟨-, e⟩ | ⟨-, e⟩ <;> cases ht.symm.trans e
    · exact finish_keepsColumns _ s _ _ _
    · exact finish_keepsColumns _ s _ _ _
  | clearError =>
    cases ht
    exact ⟨fun _ => rfl, fun _ _ => ⟨rfl, rfl⟩, fun _ _ h => absurd rfl h, fun _ h => absurd rfl h,
      fun _ h => absurd rfl h⟩
  | softReset =>
    have hne (P : Prop) : Instr.softReset ≠ .softReset → P := fun h => absurd rfl h
    exact ⟨hne _, hne _, hne _, hne _, hne _⟩

/-! ### Status, result and the register map (rules R22, R23 and R50) -/

theorem flagBits_toNat (a b c d : Bool) :
    (0#28 ++ (BitVec.ofBool a ++ (BitVec.ofBool b ++ (BitVec.ofBool c ++ BitVec.ofBool d)))).toNat =
      d.toNat + 2 * c.toNat + 4 * b.toNat + 8 * a.toNat := by
  revert a b c d
  decide

theorem busy_toNat (s : State) : s.busy.toNat = if s.pending = none then 0 else 1 := by
  rw [State.busy]
  cases s.pending <;> rfl

theorem resultWord_toNat (op : BitVec 4) (code : BitVec 8) :
    (0#20 ++ (op ++ code)).toNat = code.toNat + 256 * op.toNat := by
  rw [BitVec.toNat_append, BitVec.toNat_append, BitVec.toNat_ofNat, Nat.zero_mod, Nat.zero_shiftLeft,
    Nat.zero_or, ← Nat.shiftLeft_add_eq_or_of_lt code.isLt, Nat.shiftLeft_eq]
  omega

/-! ### Pixel words on the bus port (rules R63, R66 and R69) -/

/-- Every bus address within pixel memory lies in a pixel word (rule R40). -/
theorem exists_pixAddr_of_range {n : Nat} {addr : BusAddr} (hge : 0x100000 ≤ addr.toNat)
    (hlt : addr.toNat < 0x100000 + 16 * n) : ∃ i c, i < n ∧ wordAddr addr = pixAddr i c := by
  have hword := wordAddr_eq addr
  rcases busTarget_cases n addr with ⟨r, -, ha⟩ | ⟨i, c, -, hi, ha⟩ | ht
  · have := r.offset_lt
    omega
  · exact ⟨i, c, hi, ha⟩
  · refine ⟨(wordAddr addr - 0x100000) / 16, BitVec.ofNat 2 ((wordAddr addr - 0x100000) / 4), by omega, ?_⟩
    simp only [pixAddr, Config.pixBase, BitVec.toNat_ofNat]
    omega

/-- A pixel write is seen at its own word only. -/
theorem memRead_storePix_other (s : State) {i : Nat} {c : BitVec 2} {addr : BusAddr}
    (ha : wordAddr addr ≠ pixAddr i c) (w : Word) : (s.storePix i c w).memRead addr = s.memRead addr := by
  rw [State.memRead, State.memRead, State.storePix_npixMax]
  rcases busTarget_cases s.npixMax.toNat addr with ⟨r, ht, -⟩ | ⟨i', c', ht, -, ha'⟩ | ht <;> rw [ht]
  · cases r <;> rfl
  · have hne : ¬ (i' = i ∧ c' = c) := by
      rintro ⟨rfl, rfl⟩
      exact ha ha'
    exact (pixWord_storePix s i i' c c' w).trans (if_neg hne)

/-! ### The Host's statements (rule R89) -/

theorem hostTurn_of_stmt {s : State} {st : HostStmt} (hv : s.host.verdict = none)
    (hst : s.host.program[s.host.hpc]? = some st) : s.hostTurn = st.run s := by
  simp only [State.hostTurn, hv, hst]

theorem hostTurn_of_end {s : State} (hv : s.host.verdict = none)
    (hend : s.host.program.length ≤ s.host.hpc) : s.hostTurn = s.stopHost .pass := by
  simp only [State.hostTurn, hv, List.getElem?_eq_none hend]
  rfl

theorem hostTurn_of_stopped {s : State} (hv : s.host.verdict ≠ none) : s.hostTurn = s := by
  obtain ⟨v, hv⟩ := Option.ne_none_iff_exists'.mp hv
  simp only [State.hostTurn, hv]

theorem memWrite_host (s : State) (addr : BusAddr) (w : Word) : (s.memWrite addr w).host = s.host := by
  rcases memWrite_cases s addr w with
    ⟨-, h⟩ | ⟨-, -, h⟩ | ⟨-, -, -, h⟩ | ⟨-, -, r, -, h⟩ | ⟨-, i, c, -, -, h⟩ | ⟨-, h⟩ <;> rw [h]
  rfl

theorem run_wr (s : State) (addr : BusAddr) (w : Word) : (HostStmt.wr addr w).run s =
    { s.memWrite addr w with host := { s.host with hpc := s.host.hpc + 1 } } := by
  rw [HostStmt.run, State.setHpc, memWrite_host]

theorem run_expect (s : State) (addr : BusAddr) (mask v : Word) : (HostStmt.expect addr mask v).run s =
    if s.memRead addr &&& mask ≠ v then s.stopHost .fail else s.setHpc (s.host.hpc + 1) := by
  simp only [HostStmt.run, State.readDiffers, decide_eq_true_eq]

theorem run_bne (s : State) (addr : BusAddr) (mask v : Word) (target : Nat) :
    (HostStmt.bne addr mask v target).run s =
      if s.memRead addr &&& mask ≠ v then s.setHpc target else s.setHpc (s.host.hpc + 1) := by
  simp only [HostStmt.run, State.readDiffers, decide_eq_true_eq]

/-! ### Assembly errors (rule R89 and assumption log 7) -/

theorem assemble_of_trailing_label {ls : List SourceLine} {name : String} {k : Nat}
    (hmem : (name, k) ∈ labelTable 0 ls) (hk : programSize ls ≤ k) : ∃ e, assemble ls = .error e := by
  rw [assemble]
  cases firstDuplicate (labelTable 0 ls) with
  | some name' => exact ⟨_, rfl⟩
  | none =>
    cases hfind : (labelTable 0 ls).find? fun p => programSize ls ≤ p.2 with
    | some p => exact ⟨_, rfl⟩
    | none => exact absurd (decide_eq_true hk) (List.find?_eq_none.mp hfind _ hmem)

theorem expand_bne_of_missing {labels : List (String × Nat)} {name : String} (h : labels.lookup name = none)
    (k a m v : Nat) : ∃ e, (SourceStmt.bne a m v name).expand labels k = .error e := by
  rw [SourceStmt.expand, h]
  cases asWord m with
  | error e => exact ⟨e, rfl⟩
  | ok m =>
    cases asWord v with
    | error e => exact ⟨e, rfl⟩
    | ok v => exact ⟨_, rfl⟩

theorem expand_bne_of_label {labels : List (String × Nat)} {name : String} {target : Nat}
    (h : labels.lookup name = some target) (k a : Nat) {m v : Nat} (hm : m < 2 ^ 32) (hv : v < 2 ^ 32) :
    (SourceStmt.bne a m v name).expand labels k =
      .ok [.bne (BitVec.ofNat 21 a) (BitVec.ofNat 32 m) (BitVec.ofNat 32 v) target] := by
  rw [SourceStmt.expand, h, asWord_ok hm, asWord_ok hv]
  rfl

theorem asWord_error {n : Nat} (h : 2 ^ 32 ≤ n) : asWord n = .error (.valueOutOfRange n) := by
  have hlt : ¬ n ≤ Config.wordMax := by
    simp only [Config.wordMax]
    omega
  rw [asWord, if_neg hlt]

theorem wrStmt_error (a : Nat) {v : Nat} (h : 2 ^ 32 ≤ v) : wrStmt a v = .error (.valueOutOfRange v) := by
  rw [wrStmt, asWord_error h]
  rfl

theorem wrPixel_error (i c : Nat) {v : Int} (h : 2 ^ 32 ≤ v) :
    wrPixel i c v = .error (.valueOutOfRange v.toNat) := by
  rw [wrPixel, pixelWord, if_neg (by omega), asWord_error (by omega)]
  rfl

/-- A pixel value is written, or it is no 32-bit word. -/
theorem wrPixel_cases (i c : Nat) (v : Int) :
    (v < 2 ^ 32 ∧ ∃ st, wrPixel i c v = .ok st) ∨
      (2 ^ 32 ≤ v ∧ wrPixel i c v = .error (.valueOutOfRange v.toNat)) := by
  rcases lt_or_ge v (2 ^ 32) with h | h
  · exact .inl ⟨h, _, wrPixel_ok i c h⟩
  · exact .inr ⟨h, wrPixel_error i c h⟩

/-- SETPIX fails at its first value that is no 32-bit word. -/
theorem expand_setPix_error (labels : List (String × Nat)) (k i : Nat) (v0 v1 v2 : Int) (v3 : Option Int)
    (h : 2 ^ 32 ≤ v0 ∨ 2 ^ 32 ≤ v1 ∨ 2 ^ 32 ≤ v2 ∨ ∃ v, v3 = some v ∧ 2 ^ 32 ≤ v) :
    ∃ n, (SourceStmt.setPix i v0 v1 v2 v3).expand labels k = .error (.valueOutOfRange n) := by
  rcases wrPixel_cases i 0 v0 with ⟨h0, s0, e0⟩ | ⟨-, e0⟩
  · rcases wrPixel_cases i 1 v1 with ⟨h1, s1, e1⟩ | ⟨-, e1⟩
    · rcases wrPixel_cases i 2 v2 with ⟨h2, s2, e2⟩ | ⟨-, e2⟩
      · obtain ⟨v, rfl, hv⟩ := ((h.resolve_left h0.not_ge).resolve_left h1.not_ge).resolve_left h2.not_ge
        exact ⟨_, by simp only [SourceStmt.expand, e0, e1, e2, wrPixel_error i 3 hv]; rfl⟩
      · exact ⟨_, by rw [SourceStmt.expand, e0, e1, e2]; rfl⟩
    · exact ⟨_, by rw [SourceStmt.expand, e0, e1]; rfl⟩
  · exact ⟨_, by rw [SourceStmt.expand, e0]; rfl⟩

/-! ### What writes pixel memory (rules R41 and R63) -/

/-- A Host write stores a pixel word of an idle block, or leaves pixel memory as it was. -/
theorem memWrite_pix_cases (s : State) (addr : BusAddr) (w : Word) :
    (∀ a, (s.memWrite addr w).pixByte a = s.pixByte a) ∨
    (s.busy = false ∧ ∃ i c, i < s.npixMax.toNat ∧ wordAddr addr = pixAddr i c ∧
      s.memWrite addr w = s.storePix i c w) := by
  rcases memWrite_cases s addr w with
    ⟨-, h⟩ | ⟨-, -, h⟩ | ⟨-, -, -, h⟩ | ⟨-, -, r, -, h⟩ | ⟨hb, i, c, hi, ha, h⟩ | ⟨-, h⟩
  · exact .inl (by rw [h]; exact fun _ => rfl)
  · exact .inl (by rw [h]; exact fun _ => rfl)
  · exact .inl (by rw [h]; exact fun _ => rfl)
  · exact .inl (by rw [h]; exact fun _ => rfl)
  · exact .inr ⟨hb, i, c, hi, ha, h⟩
  · exact .inl (by rw [h]; exact fun _ => rfl)

/-- A Host turn is a WR statement of the running program, or changes the Host's own state only. -/
theorem hostTurn_stmt_cases (s : State) :
    (∃ a, s.hostTurn = { s with host := a }) ∨
    (∃ addr w a, s.host.verdict = none ∧ s.host.program[s.host.hpc]? = some (.wr addr w) ∧
      s.hostTurn = { s.memWrite addr w with host := a }) := by
  by_cases hv : s.host.verdict = none
  · cases hst : s.host.program[s.host.hpc]? with
    | none => exact .inl ⟨_, hostTurn_of_end hv (List.getElem?_eq_none_iff.mp hst)⟩
    | some st =>
      rw [hostTurn_of_stmt hv hst]
      rcases HostStmt.run_cases st s with ⟨addr, w, rfl, h⟩ | ⟨pc, h⟩ | ⟨v, h⟩
      · exact .inr ⟨addr, w, _, hv, rfl, h⟩
      · exact .inl ⟨_, h⟩
      · exact .inl ⟨_, h⟩
  · exact .inl ⟨s.host, hostTurn_of_stopped hv⟩

theorem hostTurn_pix_cases (s : State) :
    (∀ a, s.hostTurn.pixByte a = s.pixByte a) ∨
    (s.busy = false ∧ s.host.verdict = none ∧ ∃ addr w i c,
      s.host.program[s.host.hpc]? = some (.wr addr w) ∧ i < s.npixMax.toNat ∧
      addr.toNat / 4 * 4 = pixAddr i c ∧ s.hostTurn.pixWord i c = w ∧
      ∀ a, a < pixAddr i c ∨ pixAddr i c + 4 ≤ a → s.hostTurn.pixByte a = s.pixByte a) := by
  rcases hostTurn_stmt_cases s with ⟨a, h⟩ | ⟨addr, w, a, hv, hst, h⟩ <;> rw [h]
  · exact .inl fun _ => rfl
  · rcases memWrite_pix_cases s addr w with hsame | ⟨hb, i, c, hi, ha, hstore⟩
    · exact .inl hsame
    · refine .inr ⟨hb, hv, addr, w, i, c, hst, hi, (wordAddr_eq addr).symm.trans ha, ?_, ?_⟩ <;> rw [hstore]
      · exact (pixWord_storePix s i i c c w).trans (if_pos ⟨rfl, rfl⟩)
      · exact fun a' ha' => pixByte_write_other s _ a' w ha'

theorem encoderTurn_pixByte {s t : State} (h : s.encoderTurn = .next t) (a : Nat) :
    t.pixByte a = s.pixByte a := by
  rcases encoderTurn_cases s with ⟨-, e⟩ | ⟨w, i, -, -, e⟩ | ⟨w, op, -, -, e⟩ <;> rw [h] at e
  · cases e; rfl
  · obtain ⟨t', -, ht', -, -, hpix, hdraw, -⟩ := exec_answers i s
    cases e.trans ht'
    exact pixByte_congr hpix hdraw a
  · cases e; rfl

/-! ### The end of a run (rule R252) -/

/-- The input of turns is no part of the observation. -/
theorem popTurn_observe (s : State) : s.popTurn.observe = s.observe := by
  have hregs : s.popTurn.readReg = s.readReg := funext fun r => by cases r <;> rfl
  rw [State.observe, hregs]
  rfl

/-- A step of an ended run takes a turn off the input and does no more. -/
theorem step_of_runEnded {s t : State} (hend : s.RunEnded) (hreset : s.nextTurn ≠ .hardwareReset)
    (h : step s = .next t) : t = s.popTurn := by
  obtain ⟨hverdict, hbusy⟩ := hend
  rcases step_next_cases h with ⟨-, rfl⟩ | ⟨-, h⟩ | ⟨hn, -⟩
  · exact hostTurn_of_stopped hverdict
  · have hp : s.popTurn.pending = none := by simpa [State.busy] using hbusy
    cases (encoderTurn_of_idle hp).symm.trans h
    rfl
  · exact absurd hn hreset

/-! ### A pending command and the Host (rules R65 and R73) -/

/-- `s` with another BUSY_VIOLATION, Host and input of turns: what a command does not read. -/
def State.withUnread (s : State) (violation : Bool) (host : HostAgent) (turns : List Turn) : State :=
  { s with busyViolation := violation, host := host, turns := turns }

theorem sameBlock_withUnread (s : State) (violation : Bool) (host : HostAgent) (turns : List Turn) :
    s.SameBlock (s.withUnread violation host turns) := rfl

/-- STATUS alone shows what may differ (rule R22). -/
theorem State.SameBlock.readReg_eq {s t : State} (h : s.SameBlock t) {r : Reg} (hr : r ≠ .status) :
    t.readReg r = s.readReg r := by
  rw [show t = _ from h]
  cases r with
  | status => exact absurd rfl hr
  | _ => rfl

theorem State.SameBlock.out_eq {s t : State} (h : s.SameBlock t) : t.out = s.out := by
  rw [show t = _ from h]

section
variable (s : State) (violation : Bool) (host : HostAgent) (turns : List Turn)

theorem execConfigure_withUnread : ∃ t u, execConfigure s = .next t ∧
    execConfigure (s.withUnread violation host turns) = .next u ∧ t.SameBlock u := by
  rcases execConfigure_cases s with ⟨hc, h⟩ | ⟨f, hc, hd, h⟩ | ⟨d, hc, hd, h⟩
  · exact ⟨_, _, h, exec_configure_configured (s := s.withUnread violation host turns) hc, rfl⟩
  · exact ⟨_, _, h, exec_configure_error (s := s.withUnread violation host turns) hc hd, rfl⟩
  · exact ⟨_, _, h, exec_configure_ok (s := s.withUnread violation host turns) hc hd, rfl⟩

theorem execEncodeFrame_withUnread (n : Nat) (pre post : Bool) : ∃ t u,
    execEncodeFrame n pre post s = .next t ∧
    execEncodeFrame n pre post (s.withUnread violation host turns) = .next u ∧ t.SameBlock u := by
  have hfirst : (s.withUnread violation host turns).firstIllegal n = s.firstIllegal n :=
    firstIllegal_congr rfl fun _ _ => rfl
  have houtput : (s.withUnread violation host turns).frameOutput n pre post = s.frameOutput n pre post :=
    frameOutput_congr rfl (fun _ _ => rfl) rfl pre post
  rcases execEncodeFrame_cases n pre post s with ⟨hc, h⟩ | ⟨hc, hn, h⟩ | ⟨p, hc, hn, hf, h⟩ | ⟨hc, hn, hf, h⟩
  · exact ⟨_, _, h, exec_encodeFrame_unconfigured (s := s.withUnread violation host turns) hc n pre post, rfl⟩
  · exact ⟨_, _, h, exec_encodeFrame_countError (s := s.withUnread violation host turns) hc hn pre post, rfl⟩
  · have hu := exec_encodeFrame_valueError (s := s.withUnread violation host turns) hc hn (hfirst.trans hf)
    exact ⟨_, _, h, hu pre post, rfl⟩
  · have hu := exec_encodeFrame_ok (s := s.withUnread violation host turns) hc hn (hfirst.trans hf) pre post
    rw [houtput] at hu
    exact ⟨_, _, h, hu, rfl⟩

theorem execGenerateLatch_withUnread : ∃ t u, execGenerateLatch s = .next t ∧
    execGenerateLatch (s.withUnread violation host turns) = .next u ∧ t.SameBlock u := by
  rcases execGenerateLatch_cases s with ⟨hc, h⟩ | ⟨hc, h⟩
  · exact ⟨_, _, h, exec_generateLatch_unconfigured (s := s.withUnread violation host turns) hc, rfl⟩
  · exact ⟨_, _, h, exec_generateLatch_configured (s := s.withUnread violation host turns) hc, rfl⟩

/-- A command does not read BUSY_VIOLATION, the Host or the input of turns, and ends in the same block state
whatever they hold. -/
theorem exec_withUnread (i : Instr) : ∃ t u, exec i s = .next t ∧
    exec i (s.withUnread violation host turns) = .next u ∧ t.SameBlock u := by
  cases i with
  | nop => exact ⟨_, _, rfl, rfl, rfl⟩
  | configure => exact execConfigure_withUnread s violation host turns
  | encodeFrame n pre post => exact execEncodeFrame_withUnread s violation host turns n pre post
  | generateLatch => exact execGenerateLatch_withUnread s violation host turns
  | clearError => exact ⟨_, _, rfl, rfl, rfl⟩
  | softReset => exact ⟨_, _, rfl, rfl, rfl⟩

theorem encoderTurn_withUnread : ∃ t u, s.encoderTurn = .next t ∧
    (s.withUnread violation host turns).encoderTurn = .next u ∧ t.SameBlock u := by
  rcases encoderTurn_cases s with ⟨hp, h⟩ | ⟨w, i, hp, hd, h⟩ | ⟨w, op, hp, hd, h⟩
  · exact ⟨_, _, h, encoderTurn_of_idle (s := s.withUnread violation host turns) hp, rfl⟩
  · rw [h, encoderTurn_of_decode (s := s.withUnread violation host turns) hp hd]
    exact exec_withUnread s violation host turns i
  · exact ⟨_, _, h, encoderTurn_of_illegal (s := s.withUnread violation host turns) hp hd, rfl⟩

end

/-- While a word is pending a Host turn changes BUSY_VIOLATION and the Host only (rule R65). -/
theorem hostTurn_of_pending {s : State} {w : Word} (hp : s.pending = some w) :
    ∃ violation host, s.hostTurn = s.withUnread violation host s.turns := by
  rcases hostTurn_cases s with ⟨a, h⟩ | ⟨addr, v, a, -, h⟩
  · exact ⟨s.busyViolation, a, h⟩
  · rw [memWrite_of_pending hp] at h
    exact ⟨true, a, h⟩

theorem runSteps_one (s : State) : runSteps 1 s = step s := by
  rw [runSteps]
  cases step s <;> rfl

theorem runSteps_succ_of_next {s t : State} (h : step s = .next t) (k : Nat) :
    runSteps (k + 1) s = runSteps k t := by
  rw [runSteps, h]

/-- k Host turns and then the Encoder's are the Encoder's turn on a state that differs in what a command does not
read. -/
theorem runSteps_hosts_encoder {s : State} {w : Word} (hp : s.pending = some w) (k : Nat) (ts : List Turn) :
    ∃ violation host, runSteps (k + 1) { s with turns := List.replicate k .host ++ .encoder :: ts } =
      (s.withUnread violation host ts).encoderTurn := by
  induction k generalizing s with
  | zero => exact ⟨s.busyViolation, s.host, runSteps_one _⟩
  | succ k ih =>
    have hp' : ({ s with turns := List.replicate k .host ++ .encoder :: ts } : State).pending = some w := hp
    obtain ⟨violation, host, h⟩ := hostTurn_of_pending hp'
    obtain ⟨violation', host', hrun⟩ := ih (s := s.withUnread violation host s.turns) hp
    have hstep : step { s with turns := List.replicate (k + 1) .host ++ .encoder :: ts } =
        .next { s.withUnread violation host s.turns with turns := List.replicate k .host ++ .encoder :: ts } :=
      congrArg Host.Outcome.next h
    exact ⟨violation', host', (runSteps_succ_of_next hstep (k + 1)).trans hrun⟩

/-! ### The obligations -/

/-- Settles O41: what every command answers alike, and the columns; a command that emits is one of the two. -/
theorem commandFrame : Obligations.CommandFrame := by
  intro s t i ht
  obtain ⟨hcfg, hconf, hcfgErr, hvalErr, hsticky⟩ := exec_keepsColumns ht
  obtain ⟨t', bytes, ht', hpend, hop, hpix, hdraw, hnpix, hhost, hturns, hout, hlen, hbytes⟩ := exec_answers i s
  cases ht.symm.trans ht'
  refine ⟨hnpix, hpix, pixByte_congr hpix hdraw, hhost, hturns, hpend, hop, hcfg, hconf,
    hcfgErr, hvalErr, hsticky, fun hlatch hframe => ?_, bytes, hout, hlen⟩
  have hnone : bytes = [] := by
    by_contra hne
    obtain ⟨-, rfl | ⟨n, pre, post, rfl⟩⟩ := hbytes hne
    · exact hlatch rfl
    · exact hframe n pre post rfl
  rw [hout, hlen, hnone]
  exact ⟨List.append_nil _, rfl⟩

/-- Settles O42: the fields of the two words as numbers. -/
theorem statusAndResultLayout : Obligations.StatusAndResultLayout := by
  intro s
  refine ⟨?_, resultWord_toNat s.lastOp s.resultCode.code⟩
  rw [← busy_toNat]
  exact flagBits_toNat s.busyViolation s.lockViolation s.configured s.busy

/-- Settles O45: the offsets by evaluation; each register is found by its offset. -/
theorem registerMapOffsets : Obligations.RegisterMapOffsets :=
  ⟨by decide, fun r => List.mem_of_find?_eq_some (Reg.mem_all' r)⟩

/-- Settles O46: the write stores its pixel word, which only the addresses of that word read. -/
theorem pixelWriteReadsBack : Obligations.PixelWriteReadsBack := by
  intro s addr addr' w hb hge hlt
  obtain ⟨i, c, hi, ha⟩ := exists_pixAddr_of_range hge hlt
  rw [memWrite_pix hb hi ha]
  have hword := wordAddr_eq addr
  have hword' := wordAddr_eq addr'
  refine ⟨fun heq => ?_, fun hne => memRead_storePix_other s (i := i) (c := c) (by omega) w⟩
  rw [memRead_pix (s := s.storePix i c w) (c := c) hi (by omega), pixWord_storePix, if_pos ⟨rfl, rfl⟩]

/-- Settles O50: only a configured block emits. -/
theorem nothingEmittedUnconfigured : Obligations.NothingEmittedUnconfigured := by
  intro s t hc hn h
  obtain ⟨bytes, hout, hbytes⟩ := step_extends_out h hn
  have hnone : bytes = [] := by
    by_contra hne
    obtain ⟨-, hc', -⟩ := hbytes hne
    exact Bool.false_ne_true (hc.symm.trans hc')
  rw [hout, hnone, List.append_nil]

/-- Settles O56: one lemma for each statement, for each way a Host turn goes, and for each reading of a label. -/
theorem hostStatementEffects : Obligations.HostStatementEffects :=
  ⟨fun s => ⟨run_wr s, fun _ => rfl, run_expect s, run_bne s, rfl, hostTurn_of_end,
      fun _ => hostTurn_of_stmt, hostTurn_of_stopped, fun _ => rfl⟩,
    fun _ _ _ => assemble_of_trailing_label, fun _ k a m v _ h => expand_bne_of_missing h k a m v,
    fun _ k a _ _ _ _ h hm hv => expand_bne_of_label h k a hm hv⟩

/-- Settles O59: each value is written through `asWord`, which refuses it. -/
theorem outOfRangeValuesAreAssemblyErrors : Obligations.OutOfRangeValuesAreAssemblyErrors := by
  intro labels k
  refine ⟨fun r v hv => ?_, fun a v hv => ?_, fun i v0 v1 v2 v3 h =>
    expand_setPix_error labels k i v0 v1 v2 v3 h⟩
  · rw [SourceStmt.expand, wrStmt_error _ hv]
    rfl
  · rw [SourceStmt.expand, wrStmt_error _ hv]
    rfl

/-- Settles O52, turn by turn. -/
theorem pixelMemoryChangesByHostWritesOnly : Obligations.PixelMemoryChangesByHostWritesOnly := by
  intro s t h hreset
  rcases step_next_cases h with ⟨hn, rfl⟩ | ⟨-, h⟩ | ⟨hn, -⟩
  · exact (hostTurn_pix_cases s.popTurn).imp_right fun hwrite => ⟨hn, hwrite⟩
  · exact .inl fun a => encoderTurn_pixByte h a
  · exact absurd hn hreset

/-- Settles O55: the step only takes a turn off the input. -/
theorem endedRunKeepsObservation : Obligations.EndedRunKeepsObservation := by
  intro s t hend hreset h
  rw [step_of_runEnded hend hreset h]
  exact ⟨hend, popTurn_observe s⟩

/-- Settles O54: induction on the Host turns leads to an Encoder turn that reads the same block. -/
theorem pendingCommandIsIsolatedFromHost : Obligations.PendingCommandIsIsolatedFromHost := by
  intro s w k ts hp
  obtain ⟨violation, host, hrun⟩ := runSteps_hosts_encoder hp k ts
  obtain ⟨t, u, ht, hu, hsame⟩ := encoderTurn_withUnread { s with turns := ts } violation host ts
  exact ⟨t, u, (runSteps_one _).trans ht, hrun.trans hu, hsame, hsame.out_eq, fun _ hr => hsame.readReg_eq hr⟩

end Sys2Proof.Machine
end
